-- ==== Sys2Proof/Word.lean ====
section
/-! DEFINITION. The widths of the block: 8-bit values (accumulator, identifiers, reasons), 16-bit values
(timers, queue handle) and 32-bit words (ROM rows, host commands). 00_scope.md section 4, last paragraph. -/

namespace Sys2Proof

/-- 8 bits: `ACC`, `XR`, `TICKID`, event identifiers, event data, reasons. -/
abbrev Byte := BitVec 8

/-- 16 bits: `TDB`, `TSTK`, `QH` and the two windows. -/
abbrev Half := BitVec 16

/-- 32 bits: a host command word or a ROM row. -/
abbrev Word := BitVec 32

end Sys2Proof
end

