-- ==== Sys2Proof/Config.lean ====
section
/-! DEFINITION. The parameters fixed at build time (00_scope.md rules R2 to R9) and the values the spec leaves
OPEN. Every state carries its configuration, so a claim about every state is a claim about every build. -/

namespace Sys2Proof

/-- `FAIL_POLICY` (R6): does one failed instance stop every instance, or only itself? -/
inductive FailPolicy where
  | globalHalt
  | perInstance
deriving DecidableEq, Repr

/-- The build parameters (R2 to R8). Nothing writes them after build. -/
structure Config where
  /-- `N` (R2). -/
  n : Nat
  /-- `DEBOUNCE_TICKS` (R3). -/
  debounceTicks : Half
  /-- `STUCK_TICKS` (R4). -/
  stuckTicks : Half
  /-- `STUCK_CH0` (R5). -/
  stuckCh0 : Bool
  /-- `FAIL_POLICY` (R6). -/
  failPolicy : FailPolicy
  /-- `EV_PRESSED` (R7). -/
  evPressed : Byte
  /-- `EV_RELEASED` (R7). -/
  evReleased : Byte
  /-- `EV_STUCK` (R7). -/
  evStuck : Byte
  /-- `EV_UNSTUCK` (R7). -/
  evUnstuck : Byte
  /-- `TABLE`, the transition ROM, row `k` at address `k` (R8, R24). -/
  table : List Word
deriving DecidableEq, Repr

/-- The constraints R2, R7 and R8 put on the parameters: `1 ≤ N ≤ 8`; the four outward identifiers pairwise
different and different from `EV_NONE` = 0; `1 ≤ T ≤ 32`. -/
def Config.wf (c : Config) : Bool :=
  decide (1 ≤ c.n) && decide (c.n ≤ 8) &&
  decide ([0, c.evPressed, c.evReleased, c.evStuck, c.evUnstuck].Nodup) &&
  decide (1 ≤ c.table.length) && decide (c.table.length ≤ 32)

/-- `TICK_PERIOD` (R9), in device-time-units. Timing only: no rule reads it. -/
def Config.tickPeriod : Nat := 10

/-- The OPEN debounce window of the build `State.reset` shows (R3). Free value: DESIGN CHOICE, safe, log entry 1. -/
opaque Config.openDebounceTicks : Half

/-- The OPEN stuck window of the build `State.reset` shows (R4). Free value: DESIGN CHOICE, safe, log entry 1. -/
opaque Config.openStuckTicks : Half

/-- The level channel `c` reports at `State.reset`, where no sample is listed (R43, U7). Free value: DESIGN
CHOICE, safe, log entry 2. -/
opaque Config.freeLevel : Nat → Bool

/-- The answer of the event queue at `State.reset`, where no answer is listed (R45, U8). Free value: DESIGN
CHOICE, safe, log entry 3. -/
opaque Config.freeAnswer : Bool

end Sys2Proof
end

