-- ==== Sys2Proof/Syntax.lean ====
section
/-! DEFINITION. The names the spec gives states, phases, functions, events and actions, the fields of a ROM row, and
the operations of spec/opcode_table.json: one constructor of `Instr` per mnemonic. -/

namespace Sys2Proof

/-- State identities (30_encoding.md R60), all eight codes; `reserved7` is code 7. -/
inductive StateId where
  | noState
  | start
  | released
  | cnfPress
  | pressed
  | cnfRelease
  | stuck
  | reserved7
deriving DecidableEq, Repr

/-- Phases (R61). -/
inductive Phase where
  | uninit
  | oper
  | exit
  | finished
deriving DecidableEq, Repr

/-- State functions (R72), the second index of `PH`. -/
inductive Func where
  | start
  | released
  | confirm
  | pressed
  | stuck
deriving DecidableEq, Repr

/-- The event selector of a ROM row (R66): five named codes, three reserved. -/
inductive EvSel where
  | tick
  | pressed
  | released
  | stuck
  | unstuck
  | reserved5
  | reserved6
  | reserved7
deriving DecidableEq, Repr

/-- Transition actions (R65). -/
inductive Act where
  | nop
  | notify
deriving DecidableEq, Repr

/-- The fields of a ROM row (R66), highest bits first. -/
structure Row where
  cur : StateId
  evsel : EvSel
  mask : Byte
  rsnIsTick : Bool
  rsn : Byte
  next : StateId
  act : Act
  /-- Bits [4:0]: written 0, ignored by the match. -/
  zero : BitVec 5
deriving DecidableEq, Repr

/-- The exit outputs a row is compared with and the instance and state they come from (43_dispatch_table.md R140). -/
structure ExitOut where
  i : Nat
  s : StateId
  evoId : Byte
  evoData : Byte
  rsn : Byte
deriving DecidableEq, Repr

/-- The two timers of an instance (41_timer.md R100). -/
inductive Timer where
  | tdb
  | tstk
deriving DecidableEq, Repr

/-- The two phase codes that select an entry step (R61): 0 `P_UNINIT` and 3 `P_FINISHED`. -/
inductive EntryCode where
  | uninit
  | finished
deriving DecidableEq, Repr

/-- The two state identities that share the confirm steps (10_state.md R14). -/
inductive Confirm where
  | press
  | release
deriving DecidableEq, Repr

/-- The operations of the block, one constructor per mnemonic of spec/opcode_table.json. A row that repeats a
mnemonic (the second code of an entry step, the second confirm state, the second no-step range) is an operand.
`i` is the instance index and `evid` the identifier of the event the driver passed in (42_state_functions.md,
opening). -/
inductive Instr where
  /-- HC op 0 (R171); bits [29:0] ignored. -/
  | reset (ignored : BitVec 30)
  /-- HC op 1 (R172); bits [29:24] ignored. -/
  | setup (ignored : BitVec 6) (tickid : Byte) (qh : Half)
  /-- HC op 2 (R173); bits [27:24] ignored. -/
  | tick (evValid rsnValid : Bool) (ignored : BitVec 4) (evid evdata aux : Byte)
  /-- HC op 3 (R182). -/
  | hcReserved (ignored : BitVec 30)
  /-- CW 0x00 to 0x03 (`reserved` false) and 0x1C to 0x1F (`reserved` true) (R145). -/
  | noStep (reserved : Bool) (phase : Phase) (i : Nat) (evid : Byte)
  /-- CW 0x04, 0x07 (R112). -/
  | startEntry (code : EntryCode) (i : Nat) (evid : Byte)
  /-- CW 0x05 (R113). -/
  | startOper (i : Nat) (evid : Byte)
  /-- CW 0x06 (R114). -/
  | startExit (i : Nat) (evid : Byte)
  /-- CW 0x08, 0x0B (R115). -/
  | relEntry (code : EntryCode) (i : Nat) (evid : Byte)
  /-- CW 0x09 (R116). -/
  | relOper (i : Nat) (evid : Byte)
  /-- CW 0x0A (R117). -/
  | relExit (i : Nat) (evid : Byte)
  /-- CW 0x0C, 0x0F, 0x14, 0x17 (R118). -/
  | cnfEntry (side : Confirm) (code : EntryCode) (i : Nat) (evid : Byte)
  /-- CW 0x0D, 0x15 (R119). -/
  | cnfOper (side : Confirm) (i : Nat) (evid : Byte)
  /-- CW 0x0E, 0x16 (R120). -/
  | cnfExit (side : Confirm) (i : Nat) (evid : Byte)
  /-- CW 0x10, 0x13 (R121). -/
  | prsEntry (code : EntryCode) (i : Nat) (evid : Byte)
  /-- CW 0x11 (R122). -/
  | prsOper (i : Nat) (evid : Byte)
  /-- CW 0x12 (R123). -/
  | prsExit (i : Nat) (evid : Byte)
  /-- CW 0x18, 0x1B (R124). -/
  | stkEntry (code : EntryCode) (i : Nat) (evid : Byte)
  /-- CW 0x19 (R125). -/
  | stkOper (i : Nat) (evid : Byte)
  /-- CW 0x1A (R126). -/
  | stkExit (i : Nat) (evid : Byte)
  /-- ACT 0 (R146). -/
  | actNop (i : Nat) (evoId evoData rsn : Byte)
  /-- ACT 1 (R147). -/
  | actNotify (i : Nat) (evoId evoData rsn : Byte)
  /-- A ROM row whose word is none of the 11 default words (R66, R141). -/
  | row (w : Row) (x : ExitOut)
  /-- 0x23FE0080 (R151). -/
  | row0 (x : ExitOut)
  /-- 0x43FC02C0 (R152). -/
  | row1 (x : ExitOut)
  /-- 0x67FC0520 (R153). -/
  | row2 (x : ExitOut)
  /-- 0x6BFC0480 (R154). -/
  | row3 (x : ExitOut)
  /-- 0x63FC0680 (R155). -/
  | row4 (x : ExitOut)
  /-- 0x83FC0340 (R156). -/
  | row5 (x : ExitOut)
  /-- 0x83FC07A0 (R157). -/
  | row6 (x : ExitOut)
  /-- 0xABFC04A0 (R158). -/
  | row7 (x : ExitOut)
  /-- 0xA7FC0500 (R159). -/
  | row8 (x : ExitOut)
  /-- 0xA3FC0680 (R160). -/
  | row9 (x : ExitOut)
  /-- 0xC3FC08A0 (R161). -/
  | row10 (x : ExitOut)
  /-- STEP(s, i, ev_valid, evid, rsn_valid) (R110). -/
  | step (s : StateId) (i : Nat) (evValid : Bool) (evid : Byte) (rsnValid : Bool)
  /-- FILTER.SEED(i) (R90). -/
  | filterSeed (i : Nat)
  /-- FILTER.SHIFT(i, b) (R91). -/
  | filterShift (i : Nat) (b : Bool)
  /-- FILTER.CLASS(i) (R92). -/
  | filterClass (i : Nat)
  /-- TIMER.ARM(t), `t` = `TDB[i]` or `TSTK[i]` (R101). -/
  | timerArm (t : Timer) (i : Nat)
  /-- TIMER.ADVANCE (R102). -/
  | timerAdvance
  /-- TIMER.EXPIRED(t, limit), `t` = `TDB[i]` or `TSTK[i]` (R103). -/
  | timerExpired (t : Timer) (i : Nat) (limit : Half)
  /-- DISPATCH(i, s, ev_valid, evid, rsn_valid) (R140). -/
  | dispatch (i : Nat) (s : StateId) (evValid : Bool) (evid : Byte) (rsnValid : Bool)
  /-- MATCH(w, s, evo_id, evo_data, rsn) (R141). -/
  | matchRow (w : Row) (s : StateId) (evoId evoData rsn : Byte)
  /-- OUTWARD(evo_id, rsn) (R148). -/
  | outward (evoId rsn : Byte)
  /-- PULL(c) made by a step of instance `i` (20_memory.md R42; the requester is recorded, R50). -/
  | pull (i c : Nat)
  /-- POST(qh, id, data) made by a step of instance `i` (R45; the requester is recorded, R50). -/
  | post (i : Nat) (qh : Half) (id data : Byte)
deriving DecidableEq, Repr

end Sys2Proof
end

