-- ==== Sys2Proof/Decode.lean ====
section
/-! DEFINITION. The encodings of 30_encoding.md: the codes, the decoder of each of the four formats (HC, CW, ACT,
ROW), total on every word, and the encoder. A word's format is given by where it stands (the command port, the
control point, the action column, the ROM), never by its bits; log entry 8. -/

namespace Sys2Proof

/-! ### Codes -/

/-- The 3-bit code of a state identity (R60). -/
def StateId.code : StateId → BitVec 3
  | .noState => 0
  | .start => 1
  | .released => 2
  | .cnfPress => 3
  | .pressed => 4
  | .cnfRelease => 5
  | .stuck => 6
  | .reserved7 => 7

/-- The state identity of a 3-bit code (R60). -/
def StateId.ofCode (c : BitVec 3) : StateId :=
  match c.toNat with
  | 0 => .noState
  | 1 => .start
  | 2 => .released
  | 3 => .cnfPress
  | 4 => .pressed
  | 5 => .cnfRelease
  | 6 => .stuck
  | _ => .reserved7

/-- The 2-bit code of a phase (R61). -/
def Phase.code : Phase → BitVec 2
  | .uninit => 0
  | .oper => 1
  | .exit => 2
  | .finished => 3

/-- The phase of a 2-bit code (R61). -/
def Phase.ofCode (c : BitVec 2) : Phase :=
  match c.toNat with
  | 0 => .uninit
  | 1 => .oper
  | 2 => .exit
  | _ => .finished

/-- The phase an entry code stands for (R61). -/
def EntryCode.phase : EntryCode → Phase
  | .uninit => .uninit
  | .finished => .finished

/-- The state identity of a confirm state (R60). -/
def Confirm.state : Confirm → StateId
  | .press => .cnfPress
  | .release => .cnfRelease

/-- The 3-bit code of an event selector (R66). -/
def EvSel.code : EvSel → BitVec 3
  | .tick => 0
  | .pressed => 1
  | .released => 2
  | .stuck => 3
  | .unstuck => 4
  | .reserved5 => 5
  | .reserved6 => 6
  | .reserved7 => 7

/-- The event selector of a 3-bit code (R66). -/
def EvSel.ofCode (c : BitVec 3) : EvSel :=
  match c.toNat with
  | 0 => .tick
  | 1 => .pressed
  | 2 => .released
  | 3 => .stuck
  | 4 => .unstuck
  | 5 => .reserved5
  | 6 => .reserved6
  | _ => .reserved7

/-- The 1-bit code of an action (R65). -/
def Act.code : Act → BitVec 1
  | .nop => 0
  | .notify => 1

/-- The action of a 1-bit code (R65). -/
def Act.ofCode (c : BitVec 1) : Act :=
  if c = 0 then .nop else .notify

/-- `RSN_NONE` (R63). -/
def rsnNone : Byte := 0

/-- `RSN_TWITCH` (R63). -/
def rsnTwitch : Byte := 1

/-- `RSN_DEBOUNCED` (R63). -/
def rsnDebounced : Byte := 2

/-- `RSN_TIMEOUT` (R63). -/
def rsnTimeout : Byte := 3

/-- `RSN_UNSTUCK` (R63). -/
def rsnUnstuck : Byte := 4

/-- `EV_NONE` (R64): no valid identifier. -/
def evNone : Byte := 0

/-- Bits `[hi:lo]` of a word (00_scope.md section 5). -/
def bits {w : Nat} (hi lo : Nat) (v : BitVec w) : BitVec (hi - lo + 1) :=
  v.extractLsb' lo (hi - lo + 1)

/-- One bit of a word (00_scope.md section 5). -/
def bit {w : Nat} (k : Nat) (v : BitVec w) : Bool := v.getLsbD k

/-! ### ROM rows -/

/-- The 32-bit word of a row (R66), the fields from bit 31 down. -/
def Row.toWord (r : Row) : Word :=
  r.cur.code ++ r.evsel.code ++ r.mask ++ BitVec.ofBool r.rsnIsTick ++ r.rsn ++ r.next.code ++ r.act.code ++ r.zero

/-- The row of a 32-bit word (R66). -/
def Row.ofWord (w : Word) : Row where
  cur := .ofCode (bits 31 29 w)
  evsel := .ofCode (bits 28 26 w)
  mask := bits 25 18 w
  rsnIsTick := bit 17 w
  rsn := bits 16 9 w
  next := .ofCode (bits 8 6 w)
  act := .ofCode (bits 5 5 w)
  zero := bits 4 0 w

/-- Row 0 (R151): `ROW START, EV_TICK, 0xFF, TICKID -> RELEASED, NOP`. -/
def defaultRow0 : Row := ⟨.start, .tick, 0xFF, true, rsnNone, .released, .nop, 0⟩

/-- Row 1 (R152): `ROW RELEASED, EV_TICK, 0xFF, reason 1 -> CNF_PRESS, NOP`. -/
def defaultRow1 : Row := ⟨.released, .tick, 0xFF, false, rsnTwitch, .cnfPress, .nop, 0⟩

/-- Row 2 (R153): `ROW CNF_PRESS, EV_PRESSED, 0xFF, reason 2 -> PRESSED, NOTIFY`. -/
def defaultRow2 : Row := ⟨.cnfPress, .pressed, 0xFF, false, rsnDebounced, .pressed, .notify, 0⟩

/-- Row 3 (R154): `ROW CNF_PRESS, EV_RELEASED, 0xFF, reason 2 -> RELEASED, NOP`. -/
def defaultRow3 : Row := ⟨.cnfPress, .released, 0xFF, false, rsnDebounced, .released, .nop, 0⟩

/-- Row 4 (R155): `ROW CNF_PRESS, EV_TICK, 0xFF, reason 3 -> RELEASED, NOP`. -/
def defaultRow4 : Row := ⟨.cnfPress, .tick, 0xFF, false, rsnTimeout, .released, .nop, 0⟩

/-- Row 5 (R156): `ROW PRESSED, EV_TICK, 0xFF, reason 1 -> CNF_RELEASE, NOP`. -/
def defaultRow5 : Row := ⟨.pressed, .tick, 0xFF, false, rsnTwitch, .cnfRelease, .nop, 0⟩

/-- Row 6 (R157): `ROW PRESSED, EV_TICK, 0xFF, reason 3 -> STUCK, NOTIFY`. -/
def defaultRow6 : Row := ⟨.pressed, .tick, 0xFF, false, rsnTimeout, .stuck, .notify, 0⟩

/-- Row 7 (R158): `ROW CNF_RELEASE, EV_RELEASED, 0xFF, reason 2 -> RELEASED, NOTIFY`. -/
def defaultRow7 : Row := ⟨.cnfRelease, .released, 0xFF, false, rsnDebounced, .released, .notify, 0⟩

/-- Row 8 (R159): `ROW CNF_RELEASE, EV_PRESSED, 0xFF, reason 2 -> PRESSED, NOP`. -/
def defaultRow8 : Row := ⟨.cnfRelease, .pressed, 0xFF, false, rsnDebounced, .pressed, .nop, 0⟩

/-- Row 9 (R160): `ROW CNF_RELEASE, EV_TICK, 0xFF, reason 3 -> RELEASED, NOP`. -/
def defaultRow9 : Row := ⟨.cnfRelease, .tick, 0xFF, false, rsnTimeout, .released, .nop, 0⟩

/-- Row 10 (R161): `ROW STUCK, EV_TICK, 0xFF, reason 4 -> RELEASED, NOTIFY`. -/
def defaultRow10 : Row := ⟨.stuck, .tick, 0xFF, false, rsnUnstuck, .released, .notify, 0⟩

/-- The default value of `TABLE`: the 11 words of R150, row `k` at address `k`. -/
def defaultTable : List Word :=
  [0x23FE0080, 0x43FC02C0, 0x67FC0520, 0x6BFC0480,
   0x63FC0680, 0x83FC0340, 0x83FC07A0, 0xABFC04A0,
   0xA7FC0500, 0xA3FC0680, 0xC3FC08A0]

/-! ### Decoding -/

/-- An encoded word with its format (30_encoding.md, opening). -/
inductive Code where
  | hc (w : Word)
  | cw (w : BitVec 5)
  | act (w : BitVec 1)
  | row (w : Word)
deriving DecidableEq, Repr

/-- The operands that stand in no encoding: the caller of the operation supplies them (42_state_functions.md,
opening; 43_dispatch_table.md R140). -/
structure Operands where
  i : Nat
  evid : Byte
  s : StateId
  evoId : Byte
  evoData : Byte
  rsn : Byte
deriving DecidableEq, Repr

/-- All operands zero. -/
def Operands.zero : Operands := ⟨0, 0, .noState, 0, 0, 0⟩

/-- The exit outputs among the operands. -/
def Operands.exitOut (o : Operands) : ExitOut := ⟨o.i, o.s, o.evoId, o.evoData, o.rsn⟩

/-- The host command of a 32-bit word (R67). -/
def decodeHC (w : Word) : Instr :=
  match (bits 31 30 w).toNat with
  | 0 => .reset (bits 29 0 w)
  | 1 => .setup (bits 29 24 w) (bits 23 16 w) (bits 15 0 w)
  | 2 => .tick (bit 29 w) (bit 28 w) (bits 27 24 w) (bits 23 16 w) (bits 15 8 w) (bits 7 0 w)
  | _ => .hcReserved (bits 29 0 w)

/-- The step of state `s` in phase `p`: the map of R62. -/
def stepOf (s : StateId) (p : Phase) (i : Nat) (evid : Byte) : Instr :=
  match s, p with
  | .noState, p => .noStep false p i evid
  | .start, .uninit => .startEntry .uninit i evid
  | .start, .oper => .startOper i evid
  | .start, .exit => .startExit i evid
  | .start, .finished => .startEntry .finished i evid
  | .released, .uninit => .relEntry .uninit i evid
  | .released, .oper => .relOper i evid
  | .released, .exit => .relExit i evid
  | .released, .finished => .relEntry .finished i evid
  | .cnfPress, .uninit => .cnfEntry .press .uninit i evid
  | .cnfPress, .oper => .cnfOper .press i evid
  | .cnfPress, .exit => .cnfExit .press i evid
  | .cnfPress, .finished => .cnfEntry .press .finished i evid
  | .pressed, .uninit => .prsEntry .uninit i evid
  | .pressed, .oper => .prsOper i evid
  | .pressed, .exit => .prsExit i evid
  | .pressed, .finished => .prsEntry .finished i evid
  | .cnfRelease, .uninit => .cnfEntry .release .uninit i evid
  | .cnfRelease, .oper => .cnfOper .release i evid
  | .cnfRelease, .exit => .cnfExit .release i evid
  | .cnfRelease, .finished => .cnfEntry .release .finished i evid
  | .stuck, .uninit => .stkEntry .uninit i evid
  | .stuck, .oper => .stkOper i evid
  | .stuck, .exit => .stkExit i evid
  | .stuck, .finished => .stkEntry .finished i evid
  | .reserved7, p => .noStep true p i evid

/-- The step a control word selects (R62). -/
def decodeCW (w : BitVec 5) (i : Nat) (evid : Byte) : Instr :=
  stepOf (.ofCode (bits 4 2 w)) (.ofCode (bits 1 0 w)) i evid

/-- The action of a 1-bit code (R65). -/
def decodeAct (w : BitVec 1) (i : Nat) (evoId evoData rsn : Byte) : Instr :=
  match Act.ofCode w with
  | .nop => .actNop i evoId evoData rsn
  | .notify => .actNotify i evoId evoData rsn

/-- The row of a 32-bit ROM word: one of the 11 default rows (R151 to R161) by its whole word, otherwise the
generic row (R66). -/
def decodeRow (w : Word) (x : ExitOut) : Instr :=
  if w = 0x23FE0080 then .row0 x
  else if w = 0x43FC02C0 then .row1 x
  else if w = 0x67FC0520 then .row2 x
  else if w = 0x6BFC0480 then .row3 x
  else if w = 0x63FC0680 then .row4 x
  else if w = 0x83FC0340 then .row5 x
  else if w = 0x83FC07A0 then .row6 x
  else if w = 0xABFC04A0 then .row7 x
  else if w = 0xA7FC0500 then .row8 x
  else if w = 0xA3FC0680 then .row9 x
  else if w = 0xC3FC08A0 then .row10 x
  else .row (Row.ofWord w) x

/-- The operation a word of a given format selects, with the operands its caller supplies. Total: every word of
every format is some operation's (R60 to R68 leave no word without a meaning). -/
def decode (c : Code) (o : Operands) : Instr :=
  match c with
  | .hc w => decodeHC w
  | .cw w => decodeCW w o.i o.evid
  | .act w => decodeAct w o.i o.evoId o.evoData o.rsn
  | .row w => decodeRow w o.exitOut

/-! ### Encoding -/

/-- The host command word with op code `op` and the given lower 30 bits (R67). -/
def hcWord (op : BitVec 2) (low : BitVec 30) : Word := op ++ low

/-- The control word of state `s` and phase `p` (R62). -/
def cwWord (s : StateId) (p : Phase) : BitVec 5 := s.code ++ p.code

/-- The word of an operation, with its format; none for the operations of format INTERNAL, which no bit pattern
selects (30_encoding.md, opening). -/
def encode : Instr → Option Code
  | .reset ig => some (.hc (hcWord 0 ig))
  | .setup ig tickid qh => some (.hc (hcWord 1 (ig ++ tickid ++ qh)))
  | .tick ev rv ig evid evdata aux =>
      some (.hc (hcWord 2 (BitVec.ofBool ev ++ BitVec.ofBool rv ++ ig ++ evid ++ evdata ++ aux)))
  | .hcReserved ig => some (.hc (hcWord 3 ig))
  | .noStep r p _ _ => some (.cw (cwWord (if r then .reserved7 else .noState) p))
  | .startEntry c _ _ => some (.cw (cwWord .start c.phase))
  | .startOper _ _ => some (.cw (cwWord .start .oper))
  | .startExit _ _ => some (.cw (cwWord .start .exit))
  | .relEntry c _ _ => some (.cw (cwWord .released c.phase))
  | .relOper _ _ => some (.cw (cwWord .released .oper))
  | .relExit _ _ => some (.cw (cwWord .released .exit))
  | .cnfEntry d c _ _ => some (.cw (cwWord d.state c.phase))
  | .cnfOper d _ _ => some (.cw (cwWord d.state .oper))
  | .cnfExit d _ _ => some (.cw (cwWord d.state .exit))
  | .prsEntry c _ _ => some (.cw (cwWord .pressed c.phase))
  | .prsOper _ _ => some (.cw (cwWord .pressed .oper))
  | .prsExit _ _ => some (.cw (cwWord .pressed .exit))
  | .stkEntry c _ _ => some (.cw (cwWord .stuck c.phase))
  | .stkOper _ _ => some (.cw (cwWord .stuck .oper))
  | .stkExit _ _ => some (.cw (cwWord .stuck .exit))
  | .actNop _ _ _ _ => some (.act Act.nop.code)
  | .actNotify _ _ _ _ => some (.act Act.notify.code)
  | .row w _ => some (.row w.toWord)
  | .row0 _ => some (.row 0x23FE0080)
  | .row1 _ => some (.row 0x43FC02C0)
  | .row2 _ => some (.row 0x67FC0520)
  | .row3 _ => some (.row 0x6BFC0480)
  | .row4 _ => some (.row 0x63FC0680)
  | .row5 _ => some (.row 0x83FC0340)
  | .row6 _ => some (.row 0x83FC07A0)
  | .row7 _ => some (.row 0xABFC04A0)
  | .row8 _ => some (.row 0xA7FC0500)
  | .row9 _ => some (.row 0xA3FC0680)
  | .row10 _ => some (.row 0xC3FC08A0)
  | .step _ _ _ _ _ => none
  | .filterSeed _ => none
  | .filterShift _ _ => none
  | .filterClass _ => none
  | .timerArm _ _ => none
  | .timerAdvance => none
  | .timerExpired _ _ _ => none
  | .dispatch _ _ _ _ _ => none
  | .matchRow _ _ _ _ _ => none
  | .outward _ _ => none
  | .pull _ _ => none
  | .post _ _ _ _ => none

/-- The operands of a step of instance `i` with event identifier `evid`. -/
def stepOperands (i : Nat) (evid : Byte) : Operands := ⟨i, evid, .noState, 0, 0, 0⟩

/-- The operands of a row compared with the exit outputs `x`. -/
def rowOperands (x : ExitOut) : Operands := ⟨x.i, 0, x.s, x.evoId, x.evoData, x.rsn⟩

/-- The operands of an operation that stand in no encoding, for decoding its word again. -/
def operandsOf : Instr → Operands
  | .noStep _ _ i evid => stepOperands i evid
  | .startEntry _ i evid => stepOperands i evid
  | .startOper i evid => stepOperands i evid
  | .startExit i evid => stepOperands i evid
  | .relEntry _ i evid => stepOperands i evid
  | .relOper i evid => stepOperands i evid
  | .relExit i evid => stepOperands i evid
  | .cnfEntry _ _ i evid => stepOperands i evid
  | .cnfOper _ i evid => stepOperands i evid
  | .cnfExit _ i evid => stepOperands i evid
  | .prsEntry _ i evid => stepOperands i evid
  | .prsOper i evid => stepOperands i evid
  | .prsExit i evid => stepOperands i evid
  | .stkEntry _ i evid => stepOperands i evid
  | .stkOper i evid => stepOperands i evid
  | .stkExit i evid => stepOperands i evid
  | .actNop i evoId evoData rsn => rowOperands ⟨i, .noState, evoId, evoData, rsn⟩
  | .actNotify i evoId evoData rsn => rowOperands ⟨i, .noState, evoId, evoData, rsn⟩
  | .row _ x => rowOperands x
  | .row0 x => rowOperands x
  | .row1 x => rowOperands x
  | .row2 x => rowOperands x
  | .row3 x => rowOperands x
  | .row4 x => rowOperands x
  | .row5 x => rowOperands x
  | .row6 x => rowOperands x
  | .row7 x => rowOperands x
  | .row8 x => rowOperands x
  | .row9 x => rowOperands x
  | .row10 x => rowOperands x
  | .reset _ => .zero
  | .setup _ _ _ => .zero
  | .tick _ _ _ _ _ _ => .zero
  | .hcReserved _ => .zero
  | .step _ _ _ _ _ => .zero
  | .filterSeed _ => .zero
  | .filterShift _ _ => .zero
  | .filterClass _ => .zero
  | .timerArm _ _ => .zero
  | .timerAdvance => .zero
  | .timerExpired _ _ _ => .zero
  | .dispatch _ _ _ _ _ => .zero
  | .matchRow _ _ _ _ _ => .zero
  | .outward _ _ => .zero
  | .pull _ _ => .zero
  | .post _ _ _ _ => .zero

/-! ### The opcode table's words -/

/-- Are the ignored bits of a host command word written 0, as R67 says they should be? -/
def canonicalCommand (w : Word) : Bool :=
  match (bits 31 30 w).toNat with
  | 0 => bits 29 0 w == 0
  | 1 => bits 29 24 w == 0
  | 2 => bits 27 24 w == 0
  | _ => bits 29 0 w == 0

/-- Which of the two 32-bit formats a bare word of the opcode table is taken to be. The table gives a word no
format, and every 32-bit word is a command and a row; a word is taken as a row when it is one of the 11 default
rows, or when it is no canonical command, its bits [4:0] are 0 and it names a next state. DESIGN CHOICE, log
entry 8. -/
def looksLikeRow (w : Word) : Bool :=
  defaultTable.contains w ||
    (!canonicalCommand w && bits 4 0 w == 0 && bits 8 6 w != 0)

/-- The format of a bare word of the opcode table: 32-bit words are commands or rows, 8-bit words below 2 are
actions and those below 32 control words. DESIGN CHOICE, log entry 8. -/
def tableCode (nbits w : Nat) : Option Code :=
  if nbits = 32 then
    if w < 2 ^ 32 then
      some (if looksLikeRow (BitVec.ofNat 32 w) then .row (BitVec.ofNat 32 w) else .hc (BitVec.ofNat 32 w))
    else none
  else if nbits = 8 then
    if w < 2 then some (.act (BitVec.ofNat 1 w))
    else if w < 32 then some (.cw (BitVec.ofNat 5 w))
    else none
  else none

/-- The operation the decoder reads from a bare word of the opcode table, all operands zero. -/
def decodeTableWord (nbits w : Nat) : Option Instr :=
  (tableCode nbits w).map fun c => decode c .zero

end Sys2Proof
end

