-- ==== Sys2Proof/Machine/State.lean ====
section
/-! DEFINITION. The state of the block (10_state.md), the environment it answers to (20_memory.md sections 3, 4 and
8), the stops of the model, and the state after reset (R28, R220, R221). -/

namespace Sys2Proof.Machine

open Sys2Proof

/-- `PH[i][f]`, one phase per state function (R12, R72). -/
structure Phases where
  start : Phase
  released : Phase
  confirm : Phase
  pressed : Phase
  stuck : Phase
deriving DecidableEq, Repr

/-- The per-instance registers (R11, R12, R16 to R19). -/
structure Inst where
  /-- `AS[i]` (R11). -/
  as : StateId
  /-- `PH[i][f]` (R12). -/
  ph : Phases
  /-- `ACC[i]` (R16). -/
  acc : Byte
  /-- `TDB[i]` (R17). -/
  tdb : Half
  /-- `TSTK[i]` (R18). -/
  tstk : Half
  /-- `XR[i]` (R19). -/
  xr : Byte
deriving DecidableEq, Repr

/-- One channel of the bit source, outside the block (R26, R42, R43): the listed samples in pull order, the level
that follows for ever, and how many pulls have been made. -/
structure Channel where
  samples : List Bool
  level : Bool
  pulled : Nat
deriving DecidableEq, Repr

/-- One button: its instance's registers and the channel that belongs to it (R51). -/
structure Lane where
  inst : Inst
  chan : Channel
deriving DecidableEq, Repr

/-- The event queue as the block sees it (R27, R45): the listed answers in post order, the answer that follows for
ever, and how many posts have been made. -/
structure Queue where
  answers : List Bool
  rest : Bool
  posted : Nat
deriving DecidableEq, Repr

/-- The error classes of R190; the source's (a) to (d) and the spec's own (e). -/
inductive ErrorClass where
  | malformed
  | unmatched
  | postFail
  | timeout
  | badCmd
deriving DecidableEq, Repr

/-- One record of the event history (R50). -/
inductive Record where
  | pull (tick i c : Nat) (bit : Bool)
  | post (tick i : Nat) (qh : Half) (id data : Byte) (ok : Bool)
  | err (tick : Nat) (i : Option Nat) (e : ErrorClass)
  | halt (tick : Nat)
deriving DecidableEq, Repr

/-- The result of one step of a state function (R20): not done, or done with the exit outputs. -/
inductive StepResult where
  | notDone
  | done (evoId evoData rsn : Byte)
deriving DecidableEq, Repr

/-- What FILTER.CLASS answers (R92). -/
inductive Qual where
  | released
  | pressed
  | neither
deriving DecidableEq, Repr

/-- The value an operation returns to its caller (R20 and the operation rules); the model's own, log entry 5. -/
inductive Result where
  /-- The operation returns nothing. -/
  | nothing
  /-- STEP and the 15 steps. -/
  | step (r : StepResult)
  /-- DISPATCH and NOSTEP: the next active state. -/
  | state (s : StateId)
  /-- A ROM row: the next state when it matches. -/
  | row (target : Option StateId)
  /-- MATCH, TIMER.EXPIRED, PULL, POST. -/
  | bit (b : Bool)
  /-- FILTER.CLASS. -/
  | qual (q : Qual)
  /-- OUTWARD. -/
  | ident (id : Byte)
deriving DecidableEq, Repr

/-- What stands at the port, to be looked at next. A host command word is what the host gives (R170). The other
three name one operation inside a command, run alone; no host can give them; log entry 7. -/
inductive Request where
  /-- A host command word. -/
  | command (w : Word)
  /-- The step the control word of instance `i` selects, with event identifier `evid`. -/
  | control (i : Nat) (evid : Byte)
  /-- Row `r` of the ROM, compared with the exit outputs `x`. -/
  | romRow (r : Nat) (x : ExitOut)
  /-- The action of code `a` with its operands. -/
  | action (a : BitVec 1) (i : Nat) (evoId evoData rsn : Byte)
deriving DecidableEq, Repr

/-- The whole machine. -/
structure State where
  /-- The build parameters and the ROM (00_scope.md section 4, R24); never written. -/
  cfg : Config
  /-- The N buttons; button `i` at position `i` (R10). -/
  lanes : List Lane
  /-- `DRV_EN` (R21). -/
  drvEn : Bool
  /-- `QH` (R22). -/
  qh : Half
  /-- `TICKID` (R23). -/
  tickid : Byte
  /-- The event queue's answers (R45). -/
  queue : Queue
  /-- The event history, oldest record first (R50). -/
  history : List Record
  /-- Accepted TICK commands since RESET (R50). -/
  tickNo : Nat
  /-- The requests not yet looked at; log entries 6 and 7. -/
  port : List Request
  /-- The value the last operation returned; log entry 5. -/
  res : Result
deriving DecidableEq, Repr

/-- Why a step stops. The spec has no trap; these are accesses it says cannot arise (20_memory.md R48). -/
inductive Fault where
  /-- An operation names an instance index outside 0 to N-1 (R10). Raised by the operations that take an instance
  index, when run alone; no host command raises it. Safe: the model stops where the block has no register. -/
  | noSuchInstance (i : Nat)
  /-- PULL names a channel outside 0 to N-1 (R42, R48). Raised by PULL run alone. Safe. -/
  | noSuchChannel (c : Nat)
  /-- A ROM row number outside 0 to T-1 (R48). Raised by the fetch of a `romRow` request. Safe. -/
  | noSuchRow (r : Nat)
deriving DecidableEq, Repr

/-- Why a step has no meaning. -/
inductive Refusal where
  /-- An operation whose meaning is not written yet. Raised by an arm of `exec` only; no arm raises it. Safe. -/
  | notModelled (mnemonic : String)
deriving DecidableEq, Repr

/-- The phases after reset: every one `P_UNINIT` (R28). -/
def Phases.reset : Phases := ⟨.uninit, .uninit, .uninit, .uninit, .uninit⟩

/-- The registers of an instance after reset (R28). -/
def Inst.reset : Inst := ⟨.start, .reset, 0, 0, 0, 0⟩

/-- The build `State.reset` shows: the spec's defaults (R5 to R8), `N` = 8 and both windows free (R2 to R4 are
OPEN). DESIGN CHOICE, log entry 1; no statement rests on the value of `N`. -/
def openBuild : Config where
  n := 8
  debounceTicks := Config.openDebounceTicks
  stuckTicks := Config.openStuckTicks
  stuckCh0 := true
  failPolicy := .globalHalt
  evPressed := 1
  evReleased := 2
  evStuck := 3
  evUnstuck := 4
  table := defaultTable

/-- The machine right after reset for a given build, sample streams and queue answers (R28, R220): channel `c`
of `streams` belongs to instance `c`, and there are `N` of them. -/
def State.resetWith (c : Config) (streams : List Channel) (q : Queue) : State where
  cfg := c
  lanes := streams.map fun ch => ⟨.reset, ch⟩
  drvEn := false
  qh := 0
  tickid := 0
  queue := q
  history := []
  tickNo := 0
  port := []
  res := .nothing

/-- The machine right after reset (R28, R221): the open build, no listed sample and no listed answer (the levels
and the answer are free; log entries 2 and 3), nothing at the port. -/
def State.reset : State :=
  .resetWith openBuild ((List.range openBuild.n).map fun c => ⟨[], Config.freeLevel c, 0⟩) ⟨[], Config.freeAnswer, 0⟩

end Sys2Proof.Machine
end

