-- ==== Sys2Proof/Machine/Flags.lean ====
section
/-! DEFINITION. The block stores no condition codes (10_state.md R20). This file holds the conditions its steps
test and the two arithmetic operations it does: the filter's classes, the expiry test, the malformed check, the
sentinel check, the shift and the saturating increment. -/

namespace Sys2Proof.Machine

open Sys2Proof

/-- The class of an accumulator value (40_filter.md R92). -/
def qualify (acc : Byte) : Qual :=
  if acc = 0x00 then .released else if acc = 0xFF then .pressed else .neither

/-- The accumulator shifted left by one with the sample `b` in bit 0, bit 7 discarded (R91, R95). -/
def shiftIn (acc : Byte) (b : Bool) : Byte := (acc <<< 1) ||| (if b then 1 else 0)

/-- Has a timer that reads `t` reached the threshold (unsigned `>=`, 41_timer.md R103)? -/
def expired (t limit : Half) : Bool := decide (limit.toNat ≤ t.toNat)

/-- `sat16(t + 1)` (41_timer.md R102, 00_scope.md section 5). -/
def sat16Inc (t : Half) : Half := BitVec.ofNat 16 (min (t.toNat + 1) 65535)

/-- Is the call malformed: a null event or a null output-reason pointer (42_state_functions.md R110)? -/
def malformedCall (evValid rsnValid : Bool) : Bool := !evValid || !rsnValid

/-- Does the state identity select no step: the sentinel, or code 7, which behaves as the sentinel
(43_dispatch_table.md R145, 30_encoding.md R68)? -/
def isSentinel (s : StateId) : Bool :=
  match s with
  | .noState => true
  | .reserved7 => true
  | _ => false

end Sys2Proof.Machine
end

