-- ==== Sys2Proof/Machine/Operands.lean ====
section
/-! DEFINITION. How operands are found: the state function of a state identity (10_state.md R14), the read of one
register copy, the control word (30_encoding.md R62), and the resolved columns of a ROM row (R69). -/

namespace Sys2Proof.Machine

open Sys2Proof

/-- `func(s)`; none where it is undefined (R14). -/
def funcOf : StateId → Option Func
  | .noState => none
  | .start => some .start
  | .released => some .released
  | .cnfPress => some .confirm
  | .pressed => some .pressed
  | .cnfRelease => some .confirm
  | .stuck => some .stuck
  | .reserved7 => none

/-- The phase of one state function (R12). -/
def Phases.get (p : Phases) : Func → Phase
  | .start => p.start
  | .released => p.released
  | .confirm => p.confirm
  | .pressed => p.pressed
  | .stuck => p.stuck

/-- One phase replaced, the other four kept (R12). -/
def Phases.set (p : Phases) (f : Func) (v : Phase) : Phases :=
  match f with
  | .start => { p with start := v }
  | .released => { p with released := v }
  | .confirm => { p with confirm := v }
  | .pressed => { p with pressed := v }
  | .stuck => { p with stuck := v }

/-- `N`: the number of register copies (R10). -/
def State.count (s : State) : Nat := s.lanes.length

/-- What a read outside 0 to N-1 would find. No operation reads it: each checks its index first (log entry 13). -/
def absentLane : Lane := ⟨.reset, ⟨[], false, 0⟩⟩

/-- Button `i`. -/
def State.lane (s : State) (i : Nat) : Lane := s.lanes.getD i absentLane

/-- The registers of instance `i`. -/
def State.inst (s : State) (i : Nat) : Inst := (s.lane i).inst

/-- Channel `c` of the bit source. -/
def State.chan (s : State) (c : Nat) : Channel := (s.lane c).chan

/-- `AS[i]`. -/
def State.as (s : State) (i : Nat) : StateId := (s.inst i).as

/-- `PH[i][f]`. -/
def State.ph (s : State) (i : Nat) (f : Func) : Phase := (s.inst i).ph.get f

/-- `ACC[i]`. -/
def State.acc (s : State) (i : Nat) : Byte := (s.inst i).acc

/-- `TDB[i]`. -/
def State.tdb (s : State) (i : Nat) : Half := (s.inst i).tdb

/-- `TSTK[i]`. -/
def State.tstk (s : State) (i : Nat) : Half := (s.inst i).tstk

/-- `XR[i]`. -/
def State.xr (s : State) (i : Nat) : Byte := (s.inst i).xr

/-- The timer register `t` of instance `i` (41_timer.md R100). -/
def State.timer (s : State) (t : Timer) (i : Nat) : Half :=
  match t with
  | .tdb => s.tdb i
  | .tstk => s.tstk i

/-- The phase in the control word of an instance: that of its active state's function, 0 where the function is
undefined (R62). -/
def controlPhase (x : Inst) : Phase :=
  match funcOf x.as with
  | some f => x.ph.get f
  | none => .uninit

/-- The control word of an instance, `(AS[i], PH[i][func(AS[i])])` packed in 5 bits (R13, R62). -/
def controlWord (x : Inst) : BitVec 5 := cwWord x.as (controlPhase x)

/-- The event data of instance `i`: its index (42_state_functions.md R128). -/
def evData (i : Nat) : Byte := BitVec.ofNat 8 i

/-- `ev_of(w)`: the identifier a row's event selector stands for, none for a reserved selector (R69). -/
def evOf (s : State) : EvSel → Option Byte
  | .tick => some s.tickid
  | .pressed => some s.cfg.evPressed
  | .released => some s.cfg.evReleased
  | .stuck => some s.cfg.evStuck
  | .unstuck => some s.cfg.evUnstuck
  | .reserved5 => none
  | .reserved6 => none
  | .reserved7 => none

/-- `rsn_of(w)`: the reason a row asks for (R69). -/
def rsnOf (s : State) (w : Row) : Byte := if w.rsnIsTick then s.tickid else w.rsn

/-- The channel STK.OPER of instance `i` pulls: channel 0 under `STUCK_CH0`, otherwise its own (R125, R5). -/
def stuckChannel (s : State) (i : Nat) : Nat := if s.cfg.stuckCh0 then 0 else i

/-- The sample the next pull on channel `c` returns: the k-th pull returns the k-th listed sample, and the level
once the list is used up (20_memory.md R42, R43). -/
def State.nextSample (s : State) (c : Nat) : Bool :=
  (s.chan c).samples.getD (s.chan c).pulled (s.chan c).level

/-- The answer the event queue gives to the next post (R45). -/
def State.nextAnswer (s : State) : Bool := s.queue.answers.getD s.queue.posted s.queue.rest

end Sys2Proof.Machine
end

