-- ==== Sys2Proof/Machine/Ops.lean ====
section
/-! DEFINITION. The named writes and requests: one per register, the event history, `raise` (the block's only
"exception", 60_exceptions.md R190), the halt (R199), PULL and POST as seen from a step, and the check of an
instance index. There is no return operation (R201): RESET is in Machine/Driver.lean. -/

namespace Sys2Proof.Machine

open Sys2Proof

/-! ### Register writes (00_scope.md section 5: `X[i] <- v`) -/

/-- The registers of instance `i` changed by `f`; every other copy and every channel kept (R10). -/
def State.mapInst (s : State) (i : Nat) (f : Inst → Inst) : State :=
  { s with lanes := s.lanes.modify i fun l => { l with inst := f l.inst } }

/-- `AS[i] <- v`. -/
def State.setAs (s : State) (i : Nat) (v : StateId) : State := s.mapInst i fun x => { x with as := v }

/-- `PH[i][f] <- v`. -/
def State.setPh (s : State) (i : Nat) (f : Func) (v : Phase) : State :=
  s.mapInst i fun x => { x with ph := x.ph.set f v }

/-- `ACC[i] <- v`. -/
def State.setAcc (s : State) (i : Nat) (v : Byte) : State := s.mapInst i fun x => { x with acc := v }

/-- `XR[i] <- v`. -/
def State.setXr (s : State) (i : Nat) (v : Byte) : State := s.mapInst i fun x => { x with xr := v }

/-- `TDB[i] <- v` or `TSTK[i] <- v`. -/
def State.setTimer (s : State) (t : Timer) (i : Nat) (v : Half) : State :=
  match t with
  | .tdb => s.mapInst i fun x => { x with tdb := v }
  | .tstk => s.mapInst i fun x => { x with tstk := v }

/-- The value an operation returns to its caller; log entry 5. -/
def State.answer (s : State) (r : Result) : State := { s with res := r }

/-! ### The event history and the error classes -/

/-- `trace(r)`: a record appended to the event history (R50). -/
def State.log (s : State) (r : Record) : State := { s with history := s.history ++ [r] }

/-- `raise E(i)` (R190): the record, and nothing else; control is not transferred. -/
def State.raise (s : State) (i : Option Nat) (e : ErrorClass) : State := s.log (.err s.tickNo i e)

/-- The number of an error class (R190). -/
def ErrorClass.number : ErrorClass → Nat
  | .malformed => 1
  | .unmatched => 2
  | .postFail => 3
  | .timeout => 4
  | .badCmd => 5

/-- The halt (R199): `DRV_EN` cleared and one record made. -/
def State.halt (s : State) : State := { s with drvEn := false }.log (.halt s.tickNo)

/-- "re-arms": `DRV_EN` set (R178). -/
def State.rearm (s : State) : State := { s with drvEn := true }

/-! ### Requests to the outside -/

/-- `PULL(c)` made by a step of instance `i`: the channel's next sample, consumed, and the record (R42, R50). -/
def pullBit (i c : Nat) (s : State) : Bool × State :=
  (s.nextSample c,
    { s with lanes := s.lanes.modify c fun l => { l with chan := { l.chan with pulled := l.chan.pulled + 1 } } }.log
      (.pull s.tickNo i c (s.nextSample c)))

/-- `POST(qh, id, data)` made by a step of instance `i`: the queue's next answer, and the record (R45, R50). -/
def postEvent (i : Nat) (qh : Half) (id data : Byte) (s : State) : Bool × State :=
  (s.nextAnswer,
    { s with queue := { s.queue with posted := s.queue.posted + 1 } }.log
      (.post s.tickNo i qh id data s.nextAnswer))

/-! ### Running one operation alone -/

/-- The answer of an operation on instance `i`: the fault where the block has no such instance (R10, R48; log
entry 13), otherwise the next state. -/
def onInstance (i : Nat) (s t : State) : Host.Outcome State Fault Refusal :=
  if i < s.count then .next t else .fault (.noSuchInstance i)

/-- The answer of a step of instance `i`: its result and the state it leaves. -/
def onStep (i : Nat) (s : State) (r : StepResult × State) : Host.Outcome State Fault Refusal :=
  onInstance i s (r.2.answer (.step r.1))

end Sys2Proof.Machine
end

