-- ==== Sys2Proof/Machine/Filter.lean ====
section
/-! DEFINITION. The 8-bit shift-accumulator filter (40_filter.md). -/

namespace Sys2Proof.Machine

open Sys2Proof

/-- FILTER.SEED(i): `ACC[i] <- 0x01` (R90). -/
def filterSeed (i : Nat) (s : State) : State := s.setAcc i 0x01

/-- FILTER.SHIFT(i, b) (R91). -/
def filterShift (i : Nat) (b : Bool) (s : State) : State := s.setAcc i (shiftIn (s.acc i) b)

/-- FILTER.CLASS(i) (R92). -/
def filterClass (i : Nat) (s : State) : Qual := qualify (s.acc i)

/-- FILTER.SEED (R90). -/
def execFilterSeed (i : Nat) (s : State) : Host.Outcome State Fault Refusal :=
  onInstance i s ((filterSeed i s).answer .nothing)

/-- FILTER.SHIFT (R91). -/
def execFilterShift (i : Nat) (b : Bool) (s : State) : Host.Outcome State Fault Refusal :=
  onInstance i s ((filterShift i b s).answer .nothing)

/-- FILTER.CLASS (R92): writes no register. -/
def execFilterClass (i : Nat) (s : State) : Host.Outcome State Fault Refusal :=
  onInstance i s (s.answer (.qual (filterClass i s)))

end Sys2Proof.Machine
end

