-- ==== Sys2Proof/Machine/Timers.lean ====
section
/-! DEFINITION. The per-instance timers (41_timer.md). -/

namespace Sys2Proof.Machine

open Sys2Proof

/-- TIMER.ARM(t): `t <- 0` (R101). -/
def timerArm (t : Timer) (i : Nat) (s : State) : State := s.setTimer t i 0

/-- Both timers of one button one tick later, saturating (R102). -/
def advanceLane (l : Lane) : Lane :=
  { l with inst := { l.inst with tdb := sat16Inc l.inst.tdb, tstk := sat16Inc l.inst.tstk } }

/-- TIMER.ADVANCE: both timers of every instance (R102). -/
def timerAdvance (s : State) : State := { s with lanes := s.lanes.map advanceLane }

/-- TIMER.EXPIRED(t, limit) (R103). -/
def timerExpired (t : Timer) (i : Nat) (limit : Half) (s : State) : Bool := expired (s.timer t i) limit

/-- TIMER.ARM (R101). -/
def execTimerArm (t : Timer) (i : Nat) (s : State) : Host.Outcome State Fault Refusal :=
  onInstance i s ((timerArm t i s).answer .nothing)

/-- TIMER.ADVANCE (R102). -/
def execTimerAdvance (s : State) : Host.Outcome State Fault Refusal :=
  .next ((timerAdvance s).answer .nothing)

/-- TIMER.EXPIRED (R103): writes no register. -/
def execTimerExpired (t : Timer) (i : Nat) (limit : Half) (s : State) : Host.Outcome State Fault Refusal :=
  onInstance i s (s.answer (.bit (timerExpired t i limit s)))

end Sys2Proof.Machine
end

