-- ==== Sys2Proof/Machine/StateFunctions.lean ====
section
/-! DEFINITION. The state functions and their 15 steps (42_state_functions.md). A step of instance `i` is a function
from the state to its result and the next state; `exec...` runs it alone. -/

namespace Sys2Proof.Machine

open Sys2Proof

/-! ### Start (section 2) -/

/-- START.ENTRY (R112). -/
def startEntry (i : Nat) (evid : Byte) (s : State) : StepResult × State :=
  (.notDone, (s.setXr i evid).setPh i .start .exit)

/-- START.OPER (R113). -/
def startOper (i : Nat) (s : State) : StepResult × State :=
  (.notDone, s.setPh i .start .exit)

/-- START.EXIT (R114). -/
def startExit (i : Nat) (evid : Byte) (s : State) : StepResult × State :=
  (.done evid (evData i) (s.xr i), s.setPh i .start .finished)

/-! ### Released (section 3) -/

/-- REL.ENTRY (R115). -/
def relEntry (i : Nat) (s : State) : StepResult × State :=
  (.notDone, s.setPh i .released .oper)

/-- REL.OPER (R116). -/
def relOper (i : Nat) (s : State) : StepResult × State :=
  let p := pullBit i i s
  (.notDone, if p.1 then p.2.setPh i .released .exit else p.2)

/-- REL.EXIT (R117). -/
def relExit (i : Nat) (evid : Byte) (s : State) : StepResult × State :=
  (.done evid (evData i) rsnTwitch, s.setPh i .released .finished)

/-! ### Confirm-transition (section 4), shared by `S_CNF_PRESS` and `S_CNF_RELEASE` -/

/-- CNF.ENTRY (R118). -/
def cnfEntry (i : Nat) (s : State) : StepResult × State :=
  (.notDone, (timerArm .tdb i (filterSeed i s)).setPh i .confirm .oper)

/-- CNF.OPER (R119): a qualification wins over the timeout; the timeout is error class (d). -/
def cnfOper (i : Nat) (s : State) : StepResult × State :=
  let p := pullBit i i s
  let s1 := filterShift i p.1 p.2
  (.notDone,
    match filterClass i s1 with
    | .released => (s1.setXr i rsnDebounced).setPh i .confirm .exit
    | .pressed => (s1.setXr i rsnDebounced).setPh i .confirm .exit
    | .neither =>
      if timerExpired .tdb i s1.cfg.debounceTicks s1 then
        ((s1.setXr i rsnTimeout).setPh i .confirm .exit).raise (some i) .timeout
      else s1)

/-- The identifier CNF.EXIT emits (R120). -/
def cnfExitId (i : Nat) (evid : Byte) (s : State) : Byte :=
  if s.xr i = rsnDebounced ∧ s.acc i = 0xFF then s.cfg.evPressed
  else if s.xr i = rsnDebounced ∧ s.acc i = 0x00 then s.cfg.evReleased
  else evid

/-- CNF.EXIT (R120). -/
def cnfExit (i : Nat) (evid : Byte) (s : State) : StepResult × State :=
  (.done (cnfExitId i evid s) (evData i) (s.xr i), s.setPh i .confirm .finished)

/-! ### Pressed (section 5) -/

/-- PRS.ENTRY (R121). -/
def prsEntry (i : Nat) (s : State) : StepResult × State :=
  (.notDone, (timerArm .tstk i s).setPh i .pressed .oper)

/-- PRS.OPER (R122): a zero sample wins over the stuck timeout. -/
def prsOper (i : Nat) (s : State) : StepResult × State :=
  let p := pullBit i i s
  (.notDone,
    if p.1 = false then (p.2.setXr i rsnTwitch).setPh i .pressed .exit
    else if timerExpired .tstk i p.2.cfg.stuckTicks p.2 then (p.2.setXr i rsnTimeout).setPh i .pressed .exit
    else p.2)

/-- PRS.EXIT (R123). -/
def prsExit (i : Nat) (evid : Byte) (s : State) : StepResult × State :=
  (.done evid (evData i) (s.xr i), s.setPh i .pressed .finished)

/-! ### Stuck (section 6) -/

/-- STK.ENTRY (R124). -/
def stkEntry (i : Nat) (evid : Byte) (s : State) : StepResult × State :=
  (.notDone, (s.setXr i evid).setPh i .stuck .oper)

/-- STK.OPER (R125): the sample comes from channel 0 under `STUCK_CH0`. -/
def stkOper (i : Nat) (s : State) : StepResult × State :=
  let p := pullBit i (stuckChannel s i) s
  (.notDone, if p.1 = false then p.2.setPh i .stuck .exit else p.2)

/-- STK.EXIT (R126). -/
def stkExit (i : Nat) (evid : Byte) (s : State) : StepResult × State :=
  (.done evid (evData i) rsnUnstuck, s.setPh i .stuck .finished)

/-! ### The shared contract (section 1) -/

/-- The phase action of state function `f` in phase `p` (R110): `P_UNINIT` and `P_FINISHED` both run the entry
action. -/
def phaseAction (f : Func) (p : Phase) (i : Nat) (evid : Byte) (s : State) : StepResult × State :=
  match f, p with
  | .start, .uninit => startEntry i evid s
  | .start, .finished => startEntry i evid s
  | .start, .oper => startOper i s
  | .start, .exit => startExit i evid s
  | .released, .uninit => relEntry i s
  | .released, .finished => relEntry i s
  | .released, .oper => relOper i s
  | .released, .exit => relExit i evid s
  | .confirm, .uninit => cnfEntry i s
  | .confirm, .finished => cnfEntry i s
  | .confirm, .oper => cnfOper i s
  | .confirm, .exit => cnfExit i evid s
  | .pressed, .uninit => prsEntry i s
  | .pressed, .finished => prsEntry i s
  | .pressed, .oper => prsOper i s
  | .pressed, .exit => prsExit i evid s
  | .stuck, .uninit => stkEntry i evid s
  | .stuck, .finished => stkEntry i evid s
  | .stuck, .oper => stkOper i s
  | .stuck, .exit => stkExit i evid s

/-- STEP(st, i, ev_valid, evid, rsn_valid) (R110). The malformed check comes before the phase is read. Where
`func(st)` is undefined there is no step at all and nothing is raised (R197 item 1; log entry 14). -/
def stepInst (st : StateId) (i : Nat) (evValid : Bool) (evid : Byte) (rsnValid : Bool) (s : State) :
    StepResult × State :=
  match funcOf st with
  | none => (.notDone, s)
  | some f =>
    if malformedCall evValid rsnValid then (.notDone, s.raise (some i) .malformed)
    else phaseAction f (s.ph i f) i evid s

/-! ### The meanings -/

/-- STEP (R110). -/
def execStep (st : StateId) (i : Nat) (evValid : Bool) (evid : Byte) (rsnValid : Bool) (s : State) :
    Host.Outcome State Fault Refusal :=
  onStep i s (stepInst st i evValid evid rsnValid s)

/-- NOSTEP (R145, R62): no step is taken; the next active state is the sentinel. -/
def execNoStep (_reserved : Bool) (_phase : Phase) (i : Nat) (_evid : Byte) (s : State) :
    Host.Outcome State Fault Refusal :=
  onInstance i s (s.answer (.state .noState))

/-- START.ENTRY (R112). -/
def execStartEntry (_code : EntryCode) (i : Nat) (evid : Byte) (s : State) : Host.Outcome State Fault Refusal :=
  onStep i s (startEntry i evid s)

/-- START.OPER (R113). -/
def execStartOper (i : Nat) (_evid : Byte) (s : State) : Host.Outcome State Fault Refusal :=
  onStep i s (startOper i s)

/-- START.EXIT (R114). -/
def execStartExit (i : Nat) (evid : Byte) (s : State) : Host.Outcome State Fault Refusal :=
  onStep i s (startExit i evid s)

/-- REL.ENTRY (R115). -/
def execRelEntry (_code : EntryCode) (i : Nat) (_evid : Byte) (s : State) : Host.Outcome State Fault Refusal :=
  onStep i s (relEntry i s)

/-- REL.OPER (R116). -/
def execRelOper (i : Nat) (_evid : Byte) (s : State) : Host.Outcome State Fault Refusal :=
  onStep i s (relOper i s)

/-- REL.EXIT (R117). -/
def execRelExit (i : Nat) (evid : Byte) (s : State) : Host.Outcome State Fault Refusal :=
  onStep i s (relExit i evid s)

/-- CNF.ENTRY (R118): the same action in both confirm states. -/
def execCnfEntry (_side : Confirm) (_code : EntryCode) (i : Nat) (_evid : Byte) (s : State) :
    Host.Outcome State Fault Refusal :=
  onStep i s (cnfEntry i s)

/-- CNF.OPER (R119): the same action in both confirm states. -/
def execCnfOper (_side : Confirm) (i : Nat) (_evid : Byte) (s : State) : Host.Outcome State Fault Refusal :=
  onStep i s (cnfOper i s)

/-- CNF.EXIT (R120): the same action in both confirm states. -/
def execCnfExit (_side : Confirm) (i : Nat) (evid : Byte) (s : State) : Host.Outcome State Fault Refusal :=
  onStep i s (cnfExit i evid s)

/-- PRS.ENTRY (R121). -/
def execPrsEntry (_code : EntryCode) (i : Nat) (_evid : Byte) (s : State) : Host.Outcome State Fault Refusal :=
  onStep i s (prsEntry i s)

/-- PRS.OPER (R122). -/
def execPrsOper (i : Nat) (_evid : Byte) (s : State) : Host.Outcome State Fault Refusal :=
  onStep i s (prsOper i s)

/-- PRS.EXIT (R123). -/
def execPrsExit (i : Nat) (evid : Byte) (s : State) : Host.Outcome State Fault Refusal :=
  onStep i s (prsExit i evid s)

/-- STK.ENTRY (R124). -/
def execStkEntry (_code : EntryCode) (i : Nat) (evid : Byte) (s : State) : Host.Outcome State Fault Refusal :=
  onStep i s (stkEntry i evid s)

/-- STK.OPER (R125). -/
def execStkOper (i : Nat) (_evid : Byte) (s : State) : Host.Outcome State Fault Refusal :=
  onStep i s (stkOper i s)

/-- STK.EXIT (R126). -/
def execStkExit (i : Nat) (evid : Byte) (s : State) : Host.Outcome State Fault Refusal :=
  onStep i s (stkExit i evid s)

end Sys2Proof.Machine
end

