-- ==== Sys2Proof/Machine/Transition.lean ====
section
/-! DEFINITION. The dispatch primitive, the match of a ROM row, the two transition actions and the default rows
(43_dispatch_table.md). -/

namespace Sys2Proof.Machine

open Sys2Proof

/-- MATCH(w, st, evo_id, evo_data, rsn) (R141), with the rows that never match (30_encoding.md R68; log entry 10). -/
def rowMatches (w : Row) (st : StateId) (evoId evoData rsn : Byte) (s : State) : Bool :=
  !isSentinel w.cur && decide (w.cur = st) && decide (evOf s w.evsel = some evoId) &&
    decide (evoData &&& ~~~w.mask = 0) && decide (rsnOf s w = rsn)

/-- OUTWARD(evo_id, rsn) (R148). -/
def outwardId (evoId rsn : Byte) (s : State) : Byte :=
  if rsn = rsnDebounced ∧ evoId = s.cfg.evPressed then s.cfg.evPressed
  else if rsn = rsnDebounced ∧ evoId = s.cfg.evReleased then s.cfg.evReleased
  else if rsn = rsnTimeout then s.cfg.evStuck
  else if rsn = rsnUnstuck then s.cfg.evUnstuck
  else evNone

/-- ACT_NOP (R146). -/
def actNop (s : State) : State := s

/-- ACT_NOTIFY(i, evo_id, evo_data, rsn) (R147): a failed post is recorded and changes nothing else (R46). -/
def actNotify (i : Nat) (evoId evoData rsn : Byte) (s : State) : State :=
  if outwardId evoId rsn s = evNone then s
  else
    let p := postEvent i s.qh (outwardId evoId rsn s) evoData s
    if p.1 then p.2 else p.2.raise (some i) .postFail

/-- ACTION[w.act] (R140). -/
def runAction (a : Act) (x : ExitOut) (s : State) : State :=
  match a with
  | .nop => actNop s
  | .notify => actNotify x.i x.evoId x.evoData x.rsn s

/-- The next state a matched row gives: its `next` column, code 7 being the sentinel (R140, 30_encoding.md R68; log
entry 9). -/
def rowTarget (w : Row) : StateId := if isSentinel w.next then .noState else w.next

/-- One row of the search (R140): on a match its action runs and its next state is given. -/
def tryRow (w : Row) (x : ExitOut) (s : State) : Option StateId × State :=
  if rowMatches w x.s x.evoId x.evoData x.rsn s then (some (rowTarget w), runAction w.act x s) else (none, s)

/-- The search of the ROM in declaration order, first match wins (R140, R142); no match is error class (b) and
gives the sentinel (R143). -/
def searchRows : List Word → ExitOut → State → StateId × State
  | [], x, s => (.noState, s.raise (some x.i) .unmatched)
  | w :: ws, x, s =>
    match tryRow (Row.ofWord w) x s with
    | (some next, t) => (next, t)
    | (none, _) => searchRows ws x s

/-- What DISPATCH does with the result of the step (R140, R144). -/
def afterStep (i : Nat) (st : StateId) (r : StepResult × State) : StateId × State :=
  match r.1 with
  | .notDone => (st, r.2)
  | .done evoId evoData rsn => searchRows r.2.cfg.table ⟨i, st, evoId, evoData, rsn⟩ r.2

/-- DISPATCH(i, st, ev_valid, evid, rsn_valid) (R140, R145). -/
def dispatchInst (i : Nat) (st : StateId) (evValid : Bool) (evid : Byte) (rsnValid : Bool) (s : State) :
    StateId × State :=
  if isSentinel st then (.noState, s) else afterStep i st (stepInst st i evValid evid rsnValid s)

/-! ### The meanings -/

/-- DISPATCH (R140): it writes no register but those of its step; the driver stores its result in `AS[i]`. -/
def execDispatch (i : Nat) (st : StateId) (evValid : Bool) (evid : Byte) (rsnValid : Bool) (s : State) :
    Host.Outcome State Fault Refusal :=
  onInstance i s
    ((dispatchInst i st evValid evid rsnValid s).2.answer (.state (dispatchInst i st evValid evid rsnValid s).1))

/-- MATCH (R141): writes nothing. -/
def execMatchRow (w : Row) (st : StateId) (evoId evoData rsn : Byte) (s : State) :
    Host.Outcome State Fault Refusal :=
  .next (s.answer (.bit (rowMatches w st evoId evoData rsn s)))

/-- OUTWARD (R148): writes nothing. -/
def execOutward (evoId rsn : Byte) (s : State) : Host.Outcome State Fault Refusal :=
  .next (s.answer (.ident (outwardId evoId rsn s)))

/-- ACT_NOP (R146). -/
def execActNop (i : Nat) (_evoId _evoData _rsn : Byte) (s : State) : Host.Outcome State Fault Refusal :=
  onInstance i s ((actNop s).answer .nothing)

/-- ACT_NOTIFY (R147). -/
def execActNotify (i : Nat) (evoId evoData rsn : Byte) (s : State) : Host.Outcome State Fault Refusal :=
  onInstance i s ((actNotify i evoId evoData rsn s).answer .nothing)

/-- A ROM row tried against the exit outputs `x`, run alone; log entry 16. -/
def onRow (w : Row) (x : ExitOut) (s : State) : Host.Outcome State Fault Refusal :=
  onInstance x.i s ((tryRow w x s).2.answer (.row (tryRow w x s).1))

/-- ROW, a row that is none of the default rows (R66, R141, R142). -/
def execRow (w : Row) (x : ExitOut) (s : State) : Host.Outcome State Fault Refusal := onRow w x s

/-- ROW0 (R151). -/
def execRow0 (x : ExitOut) (s : State) : Host.Outcome State Fault Refusal :=
  onRow defaultRow0 x s

/-- ROW1 (R152). -/
def execRow1 (x : ExitOut) (s : State) : Host.Outcome State Fault Refusal :=
  onRow defaultRow1 x s

/-- ROW2 (R153). -/
def execRow2 (x : ExitOut) (s : State) : Host.Outcome State Fault Refusal :=
  onRow defaultRow2 x s

/-- ROW3 (R154). -/
def execRow3 (x : ExitOut) (s : State) : Host.Outcome State Fault Refusal :=
  onRow defaultRow3 x s

/-- ROW4 (R155). -/
def execRow4 (x : ExitOut) (s : State) : Host.Outcome State Fault Refusal :=
  onRow defaultRow4 x s

/-- ROW5 (R156). -/
def execRow5 (x : ExitOut) (s : State) : Host.Outcome State Fault Refusal :=
  onRow defaultRow5 x s

/-- ROW6 (R157). -/
def execRow6 (x : ExitOut) (s : State) : Host.Outcome State Fault Refusal :=
  onRow defaultRow6 x s

/-- ROW7 (R158). -/
def execRow7 (x : ExitOut) (s : State) : Host.Outcome State Fault Refusal :=
  onRow defaultRow7 x s

/-- ROW8 (R159). -/
def execRow8 (x : ExitOut) (s : State) : Host.Outcome State Fault Refusal :=
  onRow defaultRow8 x s

/-- ROW9 (R160). -/
def execRow9 (x : ExitOut) (s : State) : Host.Outcome State Fault Refusal :=
  onRow defaultRow9 x s

/-- ROW10 (R161). -/
def execRow10 (x : ExitOut) (s : State) : Host.Outcome State Fault Refusal :=
  onRow defaultRow10 x s

end Sys2Proof.Machine
end

