-- ==== Sys2Proof/Machine/Driver.lean ====
section
/-! DEFINITION. The host commands and the per-instance driver (44_driver_host.md). -/

namespace Sys2Proof.Machine

open Sys2Proof

/-- RESET (R171): every register of every instance, the three global registers and the tick count of the history;
neither the bit source nor the event queue nor the records already made. -/
def resetRegs (s : State) : State :=
  { s with
    lanes := s.lanes.map fun l => { l with inst := .reset }
    drvEn := false
    qh := 0
    tickid := 0
    tickNo := 0 }

/-- SETUP (R172). -/
def setupRegs (tickid : Byte) (qh : Half) (s : State) : State :=
  { s with qh := qh, tickid := tickid, drvEn := true }

/-- The driver's work on one instance: DISPATCH with `AS[i]`, the result stored back, and the `fail` bit (R173). -/
def driveOne (evValid rsnValid : Bool) (evid : Byte) (i : Nat) (r : Bool × State) : Bool × State :=
  let d := dispatchInst i (r.2.as i) evValid evid rsnValid r.2
  (r.1 || (decide (d.1 = .noState) && decide (r.2.cfg.failPolicy = .globalHalt)), d.2.setAs i d.1)

/-- The driver's loop over the instances `k-1` down to 0, each once, never cut short (R176, R177). -/
def driveAll (evValid rsnValid : Bool) (evid : Byte) : Nat → Bool × State → Bool × State
  | 0, r => r
  | k + 1, r => driveAll evValid rsnValid evid k (driveOne evValid rsnValid evid k r)

/-- The end of a tick: halt or re-arm (R178, R179, R198). -/
def endTick (r : Bool × State) : State := if r.1 then r.2.halt else r.2.rearm

/-- An accepted TICK (R173): the tick is counted (20_memory.md R50), time advances first (R175), then the steps. -/
def acceptedTick (evValid rsnValid : Bool) (evid : Byte) (s : State) : State :=
  endTick (driveAll evValid rsnValid evid s.count (false, timerAdvance { s with tickNo := s.tickNo + 1 }))

/-- RESET (R171). -/
def execReset (_ignored : BitVec 30) (s : State) : Host.Outcome State Fault Refusal :=
  .next ((resetRegs s).answer .nothing)

/-- SETUP (R172). -/
def execSetup (_ignored : BitVec 6) (tickid : Byte) (qh : Half) (s : State) : Host.Outcome State Fault Refusal :=
  .next ((setupRegs tickid qh s).answer .nothing)

/-- TICK (R173): not accepted while `DRV_EN` = 0 (R174). `evdata` is overwritten by the driver and `aux` is never
read (R181). -/
def execTick (evValid rsnValid : Bool) (_ignored : BitVec 4) (evid _evdata _aux : Byte) (s : State) :
    Host.Outcome State Fault Refusal :=
  if s.drvEn then .next ((acceptedTick evValid rsnValid evid s).answer .nothing) else .next (s.answer .nothing)

/-- HC op 3 (R182, 60_exceptions.md R195): error class (e) recorded, nothing else; log entry 12. -/
def execHcReserved (_ignored : BitVec 30) (s : State) : Host.Outcome State Fault Refusal :=
  .next ((s.raise none .badCmd).answer .nothing)

/-! ### Status outputs (R183) and the tick generator's word (R184) -/

/-- `drv_en`. -/
def State.drvEnOut (s : State) : Bool := s.drvEn

/-- `tick_id`. -/
def State.tickIdOut (s : State) : Byte := s.tickid

/-- `as[i]`; none outside 0 to N-1. -/
def State.asOut (s : State) (i : Nat) : Option StateId := (s.lanes[i]?).map fun l => l.inst.as

/-- `cw[i]`; none outside 0 to N-1. -/
def State.cwOut (s : State) (i : Nat) : Option (BitVec 5) := (s.lanes[i]?).map fun l => controlWord l.inst

/-- The TICK command the external tick generator gives: only while `drv_en` = 1, with `evid` = `tick_id` and both
valid flags (R184). DESIGN CHOICE, log entry 21: its `evdata` and `aux` are 0; R184 fixes neither, and nothing reads
them (R181). -/
def generatorTick (s : State) : Option Instr :=
  if s.drvEnOut then some (.tick true true 0 s.tickIdOut 0 0) else none

end Sys2Proof.Machine
end

