-- ==== Sys2Proof/Machine/Ports.lean ====
section
/-! DEFINITION. The two request ports as operations of their own (20_memory.md sections 3 and 4). -/

namespace Sys2Proof.Machine

open Sys2Proof

/-- PULL(c) (R42): one sample of channel `c` consumed and returned; no other channel and no register touched. -/
def execPull (i c : Nat) (s : State) : Host.Outcome State Fault Refusal :=
  if c < s.count then .next ((pullBit i c s).2.answer (.bit (pullBit i c s).1)) else .fault (.noSuchChannel c)

/-- POST(qh, id, data) (R45): one event handed over and its answer returned; no register touched (R46). -/
def execPost (i : Nat) (qh : Half) (id data : Byte) (s : State) : Host.Outcome State Fault Refusal :=
  .next ((postEvent i qh id data s).2.answer (.bit (postEvent i qh id data s).1))

end Sys2Proof.Machine
end

