-- ==== Sys2Proof/Machine/Dispatch.lean ====
section
/-! DEFINITION. One arm per operation of spec/opcode_table.json, each one call of its meaning. -/

namespace Sys2Proof.Machine
open Sys2Proof

def exec (i : Instr) (s : State) : Host.Outcome State Fault Refusal :=
  match i with
  -- HC
  | .reset ig => Sys2Proof.Machine.execReset ig s
  | .setup ig tickid qh => Sys2Proof.Machine.execSetup ig tickid qh s
  | .tick ev rv ig evid evdata aux => Sys2Proof.Machine.execTick ev rv ig evid evdata aux s
  | .hcReserved ig => Sys2Proof.Machine.execHcReserved ig s
  -- CW
  | .noStep r p k evid => Sys2Proof.Machine.execNoStep r p k evid s
  | .startEntry c k evid => Sys2Proof.Machine.execStartEntry c k evid s
  | .startOper k evid => Sys2Proof.Machine.execStartOper k evid s
  | .startExit k evid => Sys2Proof.Machine.execStartExit k evid s
  | .relEntry c k evid => Sys2Proof.Machine.execRelEntry c k evid s
  | .relOper k evid => Sys2Proof.Machine.execRelOper k evid s
  | .relExit k evid => Sys2Proof.Machine.execRelExit k evid s
  | .cnfEntry d c k evid => Sys2Proof.Machine.execCnfEntry d c k evid s
  | .cnfOper d k evid => Sys2Proof.Machine.execCnfOper d k evid s
  | .cnfExit d k evid => Sys2Proof.Machine.execCnfExit d k evid s
  | .prsEntry c k evid => Sys2Proof.Machine.execPrsEntry c k evid s
  | .prsOper k evid => Sys2Proof.Machine.execPrsOper k evid s
  | .prsExit k evid => Sys2Proof.Machine.execPrsExit k evid s
  | .stkEntry c k evid => Sys2Proof.Machine.execStkEntry c k evid s
  | .stkOper k evid => Sys2Proof.Machine.execStkOper k evid s
  | .stkExit k evid => Sys2Proof.Machine.execStkExit k evid s
  -- ACT
  | .actNop k evoId evoData rsn => Sys2Proof.Machine.execActNop k evoId evoData rsn s
  | .actNotify k evoId evoData rsn => Sys2Proof.Machine.execActNotify k evoId evoData rsn s
  -- ROW
  | .row w x => Sys2Proof.Machine.execRow w x s
  | .row0 x => Sys2Proof.Machine.execRow0 x s
  | .row1 x => Sys2Proof.Machine.execRow1 x s
  | .row2 x => Sys2Proof.Machine.execRow2 x s
  | .row3 x => Sys2Proof.Machine.execRow3 x s
  | .row4 x => Sys2Proof.Machine.execRow4 x s
  | .row5 x => Sys2Proof.Machine.execRow5 x s
  | .row6 x => Sys2Proof.Machine.execRow6 x s
  | .row7 x => Sys2Proof.Machine.execRow7 x s
  | .row8 x => Sys2Proof.Machine.execRow8 x s
  | .row9 x => Sys2Proof.Machine.execRow9 x s
  | .row10 x => Sys2Proof.Machine.execRow10 x s
  -- INTERNAL
  | .step st k ev evid rv => Sys2Proof.Machine.execStep st k ev evid rv s
  | .filterSeed k => Sys2Proof.Machine.execFilterSeed k s
  | .filterShift k b => Sys2Proof.Machine.execFilterShift k b s
  | .filterClass k => Sys2Proof.Machine.execFilterClass k s
  | .timerArm t k => Sys2Proof.Machine.execTimerArm t k s
  | .timerAdvance => Sys2Proof.Machine.execTimerAdvance s
  | .timerExpired t k limit => Sys2Proof.Machine.execTimerExpired t k limit s
  | .dispatch k st ev evid rv => Sys2Proof.Machine.execDispatch k st ev evid rv s
  | .matchRow w st evoId evoData rsn => Sys2Proof.Machine.execMatchRow w st evoId evoData rsn s
  | .outward evoId rsn => Sys2Proof.Machine.execOutward evoId rsn s
  | .pull k c => Sys2Proof.Machine.execPull k c s
  | .post k qh id data => Sys2Proof.Machine.execPost k qh id data s

end Sys2Proof.Machine
end

