-- ==== Sys2Proof/Machine/Fetch.lean ====
section
/-! DEFINITION. Which operation a request at the port selects: the host command word it carries, the control word
of an instance (30_encoding.md R62), a row of the ROM (R66), or an action code (R65); and how a bare word of the
opcode table is put where its format is fetched. -/

namespace Sys2Proof.Machine

open Sys2Proof

/-- What a fetch gives: an operation, or the stop. -/
inductive Fetched where
  | op (i : Instr)
  | stop (f : Fault)
deriving DecidableEq, Repr

/-- The operation a request selects. The word of a `control` request is the control word of its instance, that of a
`romRow` request the row in the ROM. -/
def fetch (q : Request) (s : State) : Fetched :=
  match q with
  | .command w => .op (decode (.hc w) .zero)
  | .control i evid =>
    match s.lanes[i]? with
    | some l => .op (decode (.cw (controlWord l.inst)) (stepOperands i evid))
    | none => .stop (.noSuchInstance i)
  | .romRow r x =>
    match s.cfg.table[r]? with
    | some w => .op (decode (.row w) (rowOperands x))
    | none => .stop (.noSuchRow r)
  | .action a i evoId evoData rsn => .op (decode (.act a) (rowOperands ⟨i, .noState, evoId, evoData, rsn⟩))

/-- The registers of an instance with its control point set to the control word `w` (R62). -/
def setControlPoint (w : BitVec 5) (x : Inst) : Inst :=
  let st := StateId.ofCode (bits 4 2 w)
  match funcOf st with
  | some f => { x with as := st, ph := x.ph.set f (.ofCode (bits 1 0 w)) }
  | none => { x with as := st }

/-- The word put where its format is fetched, and the request that fetches it the only one at the port: a command
at the port itself, a control word at the control point of instance 0, a row at ROM address 0, an action with its
request. The operands are zero. -/
def placeCode (c : Code) (s : State) : State :=
  match c with
  | .hc w => { s with port := [.command w] }
  | .cw w => { s.mapInst 0 (setControlPoint w) with port := [.control 0 0] }
  | .row w => { s with cfg := { s.cfg with table := w :: s.cfg.table.drop 1 }, port := [.romRow 0 Operands.zero.exitOut] }
  | .act w => { s with port := [.action w 0 0 0 0] }

end Sys2Proof.Machine
end

