-- ==== Sys2Proof/Machine/Step.lean ====
section
/-! DEFINITION. One step of the machine: the next request at the port, run to completion (44_driver_host.md R170). -/

namespace Sys2Proof.Machine

open Sys2Proof

/-- One step: the first request at the port is taken off it and the operation it selects is run to completion. With
nothing at the port the block is idle and holds its state (60_exceptions.md R208; log entry 6). -/
def step (s : State) : Host.Outcome State Fault Refusal :=
  match s.port with
  | [] => .next s
  | q :: rest =>
    match fetch q s with
    | .op i => exec i { s with port := rest }
    | .stop f => .fault f

/-- `s` with a bare word of the opcode table stored where `step` fetches its next operation (log entries 6 to 8). -/
def State.withFetchWord (s : State) (nbits w : Nat) : State :=
  match tableCode nbits w with
  | some c => placeCode c s
  | none => s

end Sys2Proof.Machine
end

