-- ==== Sys2Proof/Machine/Script.lean ====
section
/-! DEFINITION. The textual operations and pseudo-operations of 30_encoding.md R70 and R71 as data, their expansion
into host command words, and a script put at the port. -/

namespace Sys2Proof.Machine

open Sys2Proof

/-- A line of a host command script (R70, R71). -/
inductive ScriptOp where
  /-- `RESET`. -/
  | reset
  /-- `SETUP qh=…, tick=…`. -/
  | setup (qh : Half) (tick : Byte)
  /-- `TICK [ev=…] [noev] [norsn]`. -/
  | tick (ev : Option Byte) (noev norsn : Bool)
  /-- `TICKS n`. -/
  | ticks (n : Nat)
  /-- `BOOT qh, tick`. -/
  | boot (qh : Half) (tick : Byte)
deriving DecidableEq, Repr

/-- The word of a host command; the other operations have none (R67). -/
def hostWord (i : Instr) : Option Word :=
  match encode i with
  | some (.hc w) => some w
  | _ => none

/-- The commands one line stands for, `cur` being the current `TICKID` (R70, R71). -/
def ScriptOp.expand (cur : Byte) : ScriptOp → List Instr
  | .reset => [.reset 0]
  | .setup qh id => [.setup 0 id qh]
  | .tick ev noev norsn => [.tick (!noev) (!norsn) 0 (ev.getD cur) 0 0]
  | .ticks n => List.replicate n (.tick true true 0 cur 0 0)
  | .boot qh id => [.reset 0, .setup 0 id qh]

/-- The `TICKID` that holds after a line (R171, R172). -/
def ScriptOp.tickidAfter (cur : Byte) : ScriptOp → Byte
  | .reset => 0
  | .setup _ id => id
  | .tick _ _ _ => cur
  | .ticks _ => cur
  | .boot _ id => id

/-- The command words of a script given while `TICKID` holds `cur`: within the script each line sees the `TICKID` the
lines before it leave. -/
def scriptWords (cur : Byte) : List ScriptOp → List Word
  | [] => []
  | op :: rest => (op.expand cur).filterMap hostWord ++ scriptWords (op.tickidAfter cur) rest

/-- A script put at the port, behind what stands there. DESIGN CHOICE, log entry 20: the "current `TICKID`" of R70 and
R71 is, for the first line, what `TICKID` holds when the script is given; a SETUP or RESET that still waits at the
port ahead of the script does not change it. The spec has no queue of commands and leaves this open. -/
def State.give (s : State) (script : List ScriptOp) : State :=
  { s with port := s.port ++ (scriptWords s.tickid script).map Request.command }

end Sys2Proof.Machine
end

