-- ==== Sys2Proof/WellFormed.lean ====
section
/-! DEFINITION. Which operations are well formed: the instance index and the channel number lie in the range R2
allows, and the generic row is none of the 11 default rows, which have constructors of their own. -/

namespace Sys2Proof

/-- An instance index or channel number some build has: `N ≤ 8` (00_scope.md R2). -/
def indexOk (i : Nat) : Bool := decide (i < 8)

/-- The event data of an exit output is the instance's index (42_state_functions.md R128). -/
def ExitOut.wf (x : ExitOut) : Bool := indexOk x.i

/-- Is the operation well formed? -/
def Instr.wf : Instr → Bool
  | .reset _ => true
  | .setup _ _ _ => true
  | .tick _ _ _ _ _ _ => true
  | .hcReserved _ => true
  | .noStep _ _ i _ => indexOk i
  | .startEntry _ i _ => indexOk i
  | .startOper i _ => indexOk i
  | .startExit i _ => indexOk i
  | .relEntry _ i _ => indexOk i
  | .relOper i _ => indexOk i
  | .relExit i _ => indexOk i
  | .cnfEntry _ _ i _ => indexOk i
  | .cnfOper _ i _ => indexOk i
  | .cnfExit _ i _ => indexOk i
  | .prsEntry _ i _ => indexOk i
  | .prsOper i _ => indexOk i
  | .prsExit i _ => indexOk i
  | .stkEntry _ i _ => indexOk i
  | .stkOper i _ => indexOk i
  | .stkExit i _ => indexOk i
  | .actNop i _ _ _ => indexOk i
  | .actNotify i _ _ _ => indexOk i
  | .row w x => x.wf && !defaultTable.contains w.toWord
  | .row0 x => x.wf
  | .row1 x => x.wf
  | .row2 x => x.wf
  | .row3 x => x.wf
  | .row4 x => x.wf
  | .row5 x => x.wf
  | .row6 x => x.wf
  | .row7 x => x.wf
  | .row8 x => x.wf
  | .row9 x => x.wf
  | .row10 x => x.wf
  | .step _ i _ _ _ => indexOk i
  | .filterSeed i => indexOk i
  | .filterShift i _ => indexOk i
  | .filterClass i => indexOk i
  | .timerArm _ i => indexOk i
  | .timerAdvance => true
  | .timerExpired _ i _ => indexOk i
  | .dispatch i _ _ _ _ => indexOk i
  | .matchRow _ _ _ _ _ => true
  | .outward _ _ => true
  | .pull i c => indexOk i && indexOk c
  | .post i _ _ _ => indexOk i

end Sys2Proof
end

