-- ==== Sys2Proof/Safety.lean ====
section
/-! DEFINITION. The words claims are stated in: a state with one instance's registers replaced, a run of operations,
what a record says, which states are legal, and the host's discipline. -/

namespace Sys2Proof.Machine

open Sys2Proof

/-! ### States that differ in one place -/

/-- `s` with the registers of instance `i` replaced by `x`: no other register, channel, record or field changes. -/
def State.withInst (s : State) (i : Nat) (x : Inst) : State :=
  { s with lanes := s.lanes.modify i fun l => { l with inst := x } }

/-- `s` with one more sample of channel `c` consumed: nothing else changes. -/
def State.withPull (s : State) (c : Nat) : State :=
  { s with lanes := s.lanes.modify c fun l => { l with chan := { l.chan with pulled := l.chan.pulled + 1 } } }

/-- `s` with one more post answered: nothing else changes. -/
def State.withPost (s : State) : State := { s with queue := { s.queue with posted := s.queue.posted + 1 } }

/-- `s` with the records `rs` at the end of the history: nothing else changes. -/
def State.withRecords (s : State) (rs : List Record) : State := { s with history := s.history ++ rs }

/-- `s` with the value `r` returned: nothing else changes. -/
def State.withRes (s : State) (r : Result) : State := { s with res := r }

/-! ### Runs -/

/-- Operations run one after another; none if one of them stops. -/
def runOps : List Instr → State → Option State
  | [], s => some s
  | i :: is, s =>
    match exec i s with
    | .next t => runOps is t
    | .fault _ => none
    | .refused _ => none

/-- `k` steps of the machine; none if one of them stops. -/
def runSteps : Nat → State → Option State
  | 0, s => some s
  | k + 1, s =>
    match step s with
    | .next t => runSteps k t
    | .fault _ => none
    | .refused _ => none

/-! ### Records -/

/-- The instance whose step made the record, none for a halt or a bad command (20_memory.md R50). -/
def Record.who : Record → Option Nat
  | .pull _ i _ _ => some i
  | .post _ i _ _ _ _ => some i
  | .err _ i _ => i
  | .halt _ => none

/-- The tick number of a record (R50). -/
def Record.tickOf : Record → Nat
  | .pull t _ _ _ => t
  | .post t _ _ _ _ _ => t
  | .err t _ _ => t
  | .halt t => t

/-- Is the record a post? -/
def Record.isPost : Record → Bool
  | .post _ _ _ _ _ _ => true
  | _ => false

/-- Is the record an unmatched transition, error class (b) (60_exceptions.md R192)? -/
def Record.isUnmatched : Record → Bool
  | .err _ _ .unmatched => true
  | _ => false

/-! ### Legal registers -/

/-- Every state function but the active one is in `P_UNINIT` or `P_FINISHED` (10_state.md R15). -/
def Inst.othersIdle (x : Inst) : Prop :=
  ∀ f, funcOf x.as ≠ some f → x.ph.get f = .uninit ∨ x.ph.get f = .finished

/-- START.OPER is never next (42_state_functions.md R113). -/
def Inst.startSkipsOper (x : Inst) : Prop := x.ph.start ≠ .oper

/-- What `XR` and `ACC` hold when a confirm state or Pressed is about to exit (42_state_functions.md R120, R123). -/
def Inst.reasonsOk (x : Inst) : Prop :=
  (funcOf x.as = some .confirm → x.ph.confirm = .exit →
    (x.xr = rsnDebounced ∧ (x.acc = 0x00 ∨ x.acc = 0xFF)) ∨ x.xr = rsnTimeout) ∧
  (x.as = .pressed → x.ph.pressed = .exit → x.xr = rsnTwitch ∨ x.xr = rsnTimeout)

/-- The registers of an instance that a run from reset can show. -/
structure Inst.Legal (x : Inst) : Prop where
  known : x.as ≠ .reserved7
  idle : x.othersIdle
  start : x.startSkipsOper
  reasons : x.reasonsOk

/-- The invariant of the machine: a legal build with one register copy per instance, and legal registers. -/
structure State.Inv (s : State) : Prop where
  build : s.cfg.wf = true
  copies : s.lanes.length = s.cfg.n
  legal : ∀ l ∈ s.lanes, l.inst.Legal

/-! ### The host's discipline (43_dispatch_table.md R163, 70_reset_and_hazards.md R224) -/

/-- A request a disciplined host gives while `TICKID` is `tickid`: a well-formed TICK with that identifier. -/
def Request.disciplined (tickid : Byte) (q : Request) : Prop :=
  ∃ w ig evdata aux, q = .command w ∧ decodeHC w = .tick true true ig tickid evdata aux

/-- The instance drives: it is at one of the six states, legally, and where it is about to leave Start it holds the
tick identifier. -/
structure Inst.Driven (tickid : Byte) (x : Inst) : Prop where
  legal : x.Legal
  alive : x.as ≠ .noState
  captured : x.as = .start → x.ph.start = .exit → x.xr = tickid

/-- A state of a disciplined run with the default table. -/
structure State.Disciplined (s : State) : Prop where
  inv : s.Inv
  table : s.cfg.table = defaultTable
  port : ∀ q ∈ s.port, q.disciplined s.tickid
  driven : ∀ l ∈ s.lanes, l.inst.Driven s.tickid

/-- Only host commands stand at the port (44_driver_host.md R170). -/
def State.hostOnly (s : State) : Prop := ∀ q ∈ s.port, ∃ w, q = .command w

/-! ### The rules in the words of claims -/

/-- `{acc[6:0], b}` (40_filter.md R91). -/
def shifted (acc : Byte) (b : Bool) : Byte := bits 6 0 acc ++ BitVec.ofBool b

/-- `ev_of` by the number of the selector (30_encoding.md R69). -/
def evByCode (s : State) : Nat → Option Byte
  | 0 => some s.tickid
  | 1 => some s.cfg.evPressed
  | 2 => some s.cfg.evReleased
  | 3 => some s.cfg.evStuck
  | 4 => some s.cfg.evUnstuck
  | _ => none

/-- The four conditions of MATCH (43_dispatch_table.md R141), and that `cur` is a state that takes steps (30_encoding.md
R68). -/
def RowFits (w : Row) (st : StateId) (evoId evoData rsn : Byte) (s : State) : Prop :=
  (w.cur ≠ .noState ∧ w.cur ≠ .reserved7) ∧ w.cur = st ∧ evByCode s w.evsel.code.toNat = some evoId ∧
    evoData &&& w.mask = evoData ∧ (if w.rsnIsTick then s.tickid else w.rsn) = rsn

/-- The outward identifier (43_dispatch_table.md R148), reasons by number (30_encoding.md R63). -/
def outwardOf (c : Config) (evoId rsn : Byte) : Byte :=
  match rsn.toNat with
  | 2 => if evoId = c.evPressed then c.evPressed else if evoId = c.evReleased then c.evReleased else 0
  | 3 => c.evStuck
  | 4 => c.evUnstuck
  | _ => 0

/-- `s` after the notifier ran (43_dispatch_table.md R147). -/
def notified (i : Nat) (evoId evoData rsn : Byte) (s : State) : State :=
  if outwardOf s.cfg evoId rsn = 0 then s
  else
    s.withPost.withRecords
      (.post s.tickNo i s.qh (outwardOf s.cfg evoId rsn) evoData s.nextAnswer ::
        if s.nextAnswer then [] else [.err s.tickNo (some i) .postFail])

/-- The row a row operation tries and the exit outputs it is compared with, the default rows by their words
(43_dispatch_table.md R151 to R161). -/
def rowOf : Instr → Option (Row × ExitOut)
  | .row w x => some (w, x)
  | .row0 x => some (.ofWord 0x23FE0080, x)
  | .row1 x => some (.ofWord 0x43FC02C0, x)
  | .row2 x => some (.ofWord 0x67FC0520, x)
  | .row3 x => some (.ofWord 0x6BFC0480, x)
  | .row4 x => some (.ofWord 0x63FC0680, x)
  | .row5 x => some (.ofWord 0x83FC0340, x)
  | .row6 x => some (.ofWord 0x83FC07A0, x)
  | .row7 x => some (.ofWord 0xABFC04A0, x)
  | .row8 x => some (.ofWord 0xA7FC0500, x)
  | .row9 x => some (.ofWord 0xA3FC0680, x)
  | .row10 x => some (.ofWord 0xC3FC08A0, x)
  | _ => none

/-- The rows of a table tried one after another by their operations: the next state of the first that matches. -/
def searchByOps : List Word → ExitOut → State → Option (Option StateId × State)
  | [], _, s => some (none, s)
  | w :: ws, x, s =>
    match exec (decodeRow w x) s with
    | .next t =>
      match t.res with
      | .row (some n) => some (some n, t)
      | .row none => searchByOps ws x t
      | _ => none
    | _ => none

/-- The instance index an operation is checked against: the instance whose registers it reads or writes, or for which
its action runs. None for the host commands and the operations that name no instance, and for PULL and POST, whose
requester is only recorded (log entries 13 and 15). -/
def instanceOf : Instr → Option Nat
  | .reset _ => none
  | .setup _ _ _ => none
  | .tick _ _ _ _ _ _ => none
  | .hcReserved _ => none
  | .noStep _ _ i _ => some i
  | .startEntry _ i _ => some i
  | .startOper i _ => some i
  | .startExit i _ => some i
  | .relEntry _ i _ => some i
  | .relOper i _ => some i
  | .relExit i _ => some i
  | .cnfEntry _ _ i _ => some i
  | .cnfOper _ i _ => some i
  | .cnfExit _ i _ => some i
  | .prsEntry _ i _ => some i
  | .prsOper i _ => some i
  | .prsExit i _ => some i
  | .stkEntry _ i _ => some i
  | .stkOper i _ => some i
  | .stkExit i _ => some i
  | .actNop i _ _ _ => some i
  | .actNotify i _ _ _ => some i
  | .row _ x => some x.i
  | .row0 x => some x.i
  | .row1 x => some x.i
  | .row2 x => some x.i
  | .row3 x => some x.i
  | .row4 x => some x.i
  | .row5 x => some x.i
  | .row6 x => some x.i
  | .row7 x => some x.i
  | .row8 x => some x.i
  | .row9 x => some x.i
  | .row10 x => some x.i
  | .step _ i _ _ _ => some i
  | .filterSeed i => some i
  | .filterShift i _ => some i
  | .filterClass i => some i
  | .timerArm _ i => some i
  | .timerAdvance => none
  | .timerExpired _ i _ => some i
  | .dispatch i _ _ _ _ => some i
  | .matchRow _ _ _ _ _ => none
  | .outward _ _ => none
  | .pull _ _ => none
  | .post _ _ _ _ => none

/-- The channel an operation is checked against: PULL's only (20_memory.md R42). STK.OPER's channel 0 exists in every
build (R48). -/
def channelOf : Instr → Option Nat
  | .pull _ c => some c
  | _ => none

/-- DISPATCH run for each instance of the list, its result stored in `AS` (44_driver_host.md R173). -/
def driveByOps (evValid rsnValid : Bool) (evid : Byte) : List Nat → State → Option State
  | [], s => some s
  | i :: is, s =>
    match exec (.dispatch i (s.as i) evValid evid rsnValid) s with
    | .next t =>
      match t.res with
      | .state n => driveByOps evValid rsnValid evid is (t.withInst i { t.inst i with as := n })
      | _ => none
    | _ => none

/-- The instances 0 to N-1, highest first (44_driver_host.md R176). -/
def State.descending (s : State) : List Nat := (List.range s.count).reverse

/-- Is some instance at the sentinel? -/
def State.someDead (s : State) : Prop := ∃ i < s.count, s.as i = .noState

/-- What one call of DISPATCH for instance `i` in tick `n` adds to the history (20_memory.md R55, 60_exceptions.md
R197): a pull and at most a timeout error, or a post and at most a post failure, or one error, or nothing. -/
inductive CallRecords (n i : Nat) : List Record → Prop where
  | none : CallRecords n i []
  | pull (c : Nat) (b : Bool) : CallRecords n i [.pull n i c b]
  | pullTimeout (b : Bool) : CallRecords n i [.pull n i i b, .err n (some i) .timeout]
  | post (qh : Half) (id data : Byte) : CallRecords n i [.post n i qh id data true]
  | postFail (qh : Half) (id data : Byte) :
      CallRecords n i [.post n i qh id data false, .err n (some i) .postFail]
  | malformed : CallRecords n i [.err n (some i) .malformed]
  | unmatched : CallRecords n i [.err n (some i) .unmatched]

/-- One move along the life cycle of a phase (42_state_functions.md R111), or none. -/
inductive PhaseMove (f : Func) : Phase → Phase → Prop where
  | stay (p : Phase) : PhaseMove f p p
  | enter (p : Phase) : p = .uninit ∨ p = .finished → f ≠ .start → PhaseMove f p .oper
  | enterStart (p : Phase) : p = .uninit ∨ p = .finished → f = .start → PhaseMove f p .exit
  | fire : PhaseMove f .oper .exit
  | leave : PhaseMove f .exit .finished

/-- The edges of the state graph of the default table (43_dispatch_table.md R162), a stay, and the way to the
sentinel. -/
inductive GraphMove : StateId → StateId → Prop where
  | stay (s : StateId) : GraphMove s s
  | seed : GraphMove .start .released
  | twitch : GraphMove .released .cnfPress
  | pressed : GraphMove .cnfPress .pressed
  | glitch : GraphMove .cnfPress .released
  | letGo : GraphMove .pressed .cnfRelease
  | held : GraphMove .pressed .stuck
  | released : GraphMove .cnfRelease .released
  | dropOut : GraphMove .cnfRelease .pressed
  | unstuck : GraphMove .stuck .released
  | dead (s : StateId) : GraphMove s .noState

end Sys2Proof.Machine
end

