-- ==== Sys2Proof/Certificates/Slice0/Obligations.lean ====
section
/-! DEFINITION. The statements for the provers. A rule the spec marks as its own decision or derivation is cited by
its section, and the docstring names the mark. -/

open Sys2Proof Sys2Proof.Machine

/-! ### Host commands -/

/-- RESET, whatever its ignored bits and whatever the state before, leaves every register at its reset value (rule R28;
the values of `XR`, `DRV_EN`, `QH` and `TICKID` are the spec's decisions D11 and D23). That it touches neither the build,
the channels nor the queue, and restarts the tick count, is the spec's decision D37 (rule R171). That it keeps the
records already made is the model's reading (log entry 4, DEDUCED): D37 and R171 name no record. -/
def Obligations.ResetGivesEveryRegisterItsResetValue : Prop :=
  ∀ ig (s : State), ∃ t, exec (.reset ig) s = .next t ∧
    t.count = s.count ∧
    (∀ i < s.count, t.as i = .start ∧ (∀ f, t.ph i f = .uninit) ∧ t.acc i = 0x00 ∧ t.tdb i = 0 ∧ t.tstk i = 0 ∧
      t.xr i = 0x00 ∧ t.chan i = s.chan i) ∧
    t.drvEn = false ∧ t.qh = 0 ∧ t.tickid = 0 ∧ t.tickNo = 0 ∧
    t.cfg = s.cfg ∧ t.queue = s.queue ∧ t.history = s.history ∧ t.port = s.port ∧ t.res = .nothing

/-- The spec's decision D23 (rule R172): SETUP writes `QH`, `TICKID` and `DRV_EN` and nothing else, at any time. -/
def Obligations.SetupWritesThreeRegisters : Prop :=
  ∀ ig tickid qh (s : State), exec (.setup ig tickid qh) s =
    .next ({ s with qh := qh, tickid := tickid, drvEn := true }.withRes .nothing)

/-- The spec's decision D24 (rule R174): a TICK given while `DRV_EN` = 0 changes nothing and records nothing. -/
def Obligations.TickWhileDisabledChangesNothing : Prop :=
  ∀ ev rv ig evid evdata aux (s : State), s.drvEn = false →
    exec (.tick ev rv ig evid evdata aux) s = .next (s.withRes .nothing)

/-- Rules R173, R176, R178 and, under PER_INSTANCE, the spec's decision D26: an accepted TICK completes; it is TIMER.ADVANCE, then for every instance, highest index first, one
DISPATCH with `AS[i]` whose result is stored in `AS[i]`, then the halt when under GLOBAL some instance is at the
sentinel, and otherwise the re-arming. -/
def Obligations.AcceptedTickIsAdvanceThenDispatchEach : Prop :=
  ∀ ev rv ig evid evdata aux (s : State), s.drvEn = true →
    ∃ a t, exec .timerAdvance { s with tickNo := s.tickNo + 1 } = .next a ∧
      driveByOps ev rv evid s.descending a = some t ∧
      ((s.cfg.failPolicy = .globalHalt ∧ t.someDead) →
        exec (.tick ev rv ig evid evdata aux) s =
          .next (({ t with drvEn := false }.withRecords [.halt (s.tickNo + 1)]).withRes .nothing)) ∧
      (¬(s.cfg.failPolicy = .globalHalt ∧ t.someDead) →
        exec (.tick ev rv ig evid evdata aux) s = .next ({ t with drvEn := true }.withRes .nothing))

/-- The spec's decisions D22 and D29 (rules R67, R181): the incoming `evdata`, `aux` and the ignored bits of a TICK
have no effect, nor has `evid` when `ev_valid` = 0. -/
def Obligations.TickIgnoresUnreadOperands : Prop :=
  ∀ ev rv ig ig' evid evid' evdata evdata' aux aux' (s : State), (ev = true → evid' = evid) →
    exec (.tick ev rv ig evid evdata aux) s = exec (.tick ev rv ig' evid' evdata' aux') s

/-- Rules R191 and R180: in a malformed TICK that is accepted, one class (a) error is recorded for every instance that takes steps,
highest index first; no other register of an instance changes than its timers, which have advanced; no sample is
consumed and nothing is posted. (An instance at code 7, which behaves as the sentinel, becomes the sentinel: log
entry 9.) -/
def Obligations.MalformedTickOnlyRecordsAndAdvances : Prop :=
  ∀ ev rv ig evid evdata aux (s : State), s.drvEn = true → (ev = false ∨ rv = false) →
    ∃ t, exec (.tick ev rv ig evid evdata aux) s = .next t ∧
      t.count = s.count ∧
      (∀ i < s.count, t.chan i = s.chan i ∧
        t.inst i = { s.inst i with
          as := if s.as i = .reserved7 then .noState else s.as i
          tdb := BitVec.ofNat 16 (min ((s.tdb i).toNat + 1) 65535)
          tstk := BitVec.ofNat 16 (min ((s.tstk i).toNat + 1) 65535) }) ∧
      (t.drvEn = true ↔ ¬(s.cfg.failPolicy = .globalHalt ∧ t.someDead)) ∧
      t.history = s.history ++
        (s.descending.filter fun i => s.as i != .noState && s.as i != .reserved7).map
          (fun i => .err (s.tickNo + 1) (some i) .malformed) ++
        (if t.drvEn then [] else [.halt (s.tickNo + 1)]) ∧
      t.cfg = s.cfg ∧ t.queue = s.queue ∧ t.qh = s.qh ∧ t.tickid = s.tickid ∧ t.tickNo = s.tickNo + 1

/-- The spec's decision D22 (rules R182, R195), taken as an effect and not as a refusal (log entry 12): the reserved
command records error class (e) with no instance, whatever `DRV_EN` is, and changes nothing else. -/
def Obligations.ReservedCommandOnlyRecords : Prop :=
  ∀ ig (s : State), exec (.hcReserved ig) s = .next ((s.withRecords [.err s.tickNo none .badCmd]).withRes .nothing)

/-- Derived in the spec (rule R233): after a failure, SETUP and one TICK leave the sentinel where it was and under
GLOBAL clear `DRV_EN` again. -/
def Obligations.SetupAfterFailureHaltsAgain : Prop :=
  ∀ ig tickid qh ev rv ig' evid evdata aux (s : State) i, i < s.count → s.as i = .noState → s.cfg.failPolicy = .globalHalt →
    ∃ t, runOps [.setup ig tickid qh, .tick ev rv ig' evid evdata aux] s = some t ∧ t.as i = .noState ∧
      t.drvEn = false ∧ t.history.getLast? = some (.halt (s.tickNo + 1))

/-! ### Start -/

/-- Rules R112 and R114: START.ENTRY captures the event identifier and goes straight to `P_EXIT`; START.EXIT emits the
current identifier, the instance index and, as the reason, the captured identifier. Nothing else changes. That Start
emits the incoming identifier is the spec's decision D14 (rule R128). -/
def Obligations.StartEntryCapturesAndExitEmits : Prop :=
  ∀ c i evid (s : State), i < s.count →
    exec (.startEntry c i evid) s =
      .next ((s.withInst i { s.inst i with xr := evid, ph := { (s.inst i).ph with start := .exit } }).withRes
        (.step .notDone)) ∧
    exec (.startExit i evid) s =
      .next ((s.withInst i { s.inst i with ph := { (s.inst i).ph with start := .finished } }).withRes
        (.step (.done evid (BitVec.ofNat 8 i) (s.xr i))))

/-- The spec's decision D15 (rule R113): START.OPER only sets the phase to `P_EXIT`. -/
def Obligations.StartOperOnlySetsExitPhase : Prop :=
  ∀ i evid (s : State), i < s.count →
    exec (.startOper i evid) s =
      .next ((s.withInst i { s.inst i with ph := { (s.inst i).ph with start := .exit } }).withRes (.step .notDone))

/-! ### Released -/

/-- R115, R116, R117: REL.ENTRY sets the phase; REL.OPER pulls one sample of its own channel and fires on a 1; REL.EXIT
emits the current identifier, the index and `RSN_TWITCH`. Nothing else changes. -/
def Obligations.ReleasedStepsFollowTheSample : Prop :=
  ∀ c i evid (s : State), i < s.count →
    exec (.relEntry c i evid) s =
      .next ((s.withInst i { s.inst i with ph := { (s.inst i).ph with released := .oper } }).withRes
        (.step .notDone)) ∧
    (s.nextSample i = true → exec (.relOper i evid) s =
      .next ((((s.withPull i).withInst i { s.inst i with ph := { (s.inst i).ph with released := .exit } }).withRecords
        [.pull s.tickNo i i true]).withRes (.step .notDone))) ∧
    (s.nextSample i = false → exec (.relOper i evid) s =
      .next (((s.withPull i).withRecords [.pull s.tickNo i i false]).withRes (.step .notDone))) ∧
    exec (.relExit i evid) s =
      .next ((s.withInst i { s.inst i with ph := { (s.inst i).ph with released := .finished } }).withRes
        (.step (.done evid (BitVec.ofNat 8 i) 1)))

/-! ### Confirm-transition -/

/-- R118: CNF.ENTRY seeds the accumulator with 0x01, clears the debounce timer and sets the phase, in both confirm
states and from both phase codes alike. -/
def Obligations.ConfirmEntrySeedsAndArms : Prop :=
  ∀ d c i evid (s : State), i < s.count →
    exec (.cnfEntry d c i evid) s =
      .next ((s.withInst i { s.inst i with acc := 0x01, tdb := 0, ph := { (s.inst i).ph with confirm := .oper } }).withRes
        (.step .notDone))

/-- R119: CNF.OPER pulls one sample and shifts it in; a qualification fires with `RSN_DEBOUNCED` before an expired
window fires with `RSN_TIMEOUT` and error class (d); otherwise only the accumulator changes. -/
def Obligations.ConfirmOperQualifiesBeforeItTimesOut : Prop :=
  ∀ d i evid (s : State) acc p, i < s.count → acc = shifted (s.acc i) (s.nextSample i) →
    p = (s.withPull i).withRecords [.pull s.tickNo i i (s.nextSample i)] →
    ((acc = 0x00 ∨ acc = 0xFF) → exec (.cnfOper d i evid) s =
      .next ((p.withInst i { s.inst i with
        acc := acc, xr := 2, ph := { (s.inst i).ph with confirm := .exit } }).withRes (.step .notDone))) ∧
    (¬(acc = 0x00 ∨ acc = 0xFF) → s.cfg.debounceTicks.toNat ≤ (s.tdb i).toNat → exec (.cnfOper d i evid) s =
      .next (((p.withInst i { s.inst i with
        acc := acc, xr := 3, ph := { (s.inst i).ph with confirm := .exit } }).withRecords
          [.err s.tickNo (some i) .timeout]).withRes (.step .notDone))) ∧
    (¬(acc = 0x00 ∨ acc = 0xFF) → (s.tdb i).toNat < s.cfg.debounceTicks.toNat → exec (.cnfOper d i evid) s =
      .next ((p.withInst i { s.inst i with acc := acc }).withRes (.step .notDone)))

/-- The spec's decision D14 (rule R120): CNF.EXIT emits `EV_PRESSED` or `EV_RELEASED` after a qualification and the
current identifier otherwise, with the index and the latched reason. -/
def Obligations.ConfirmExitEmitsTheQualifiedLevel : Prop :=
  ∀ d i evid (s : State), i < s.count → ∃ id,
    exec (.cnfExit d i evid) s =
      .next ((s.withInst i { s.inst i with ph := { (s.inst i).ph with confirm := .finished } }).withRes
        (.step (.done id (BitVec.ofNat 8 i) (s.xr i)))) ∧
    (s.xr i = 2 → s.acc i = 0xFF → id = s.cfg.evPressed) ∧
    (s.xr i = 2 → s.acc i = 0x00 → id = s.cfg.evReleased) ∧
    (s.xr i ≠ 2 ∨ (s.acc i ≠ 0xFF ∧ s.acc i ≠ 0x00) → id = evid)

/-! ### Pressed -/

/-- Rules R121, R122 and R123: PRS.ENTRY clears the stuck timer and sets the phase; PRS.OPER pulls one sample and fires
on a 0 with `RSN_TWITCH` before it fires on the expired window with `RSN_TIMEOUT`; PRS.EXIT emits the current
identifier, the instance index and the latched reason. That Pressed emits the incoming identifier is the spec's
decision D14 (rule R128). -/
def Obligations.PressedStepsWatchTheSampleThenTheTimer : Prop :=
  ∀ c i evid (s : State) p, i < s.count → p = (s.withPull i).withRecords [.pull s.tickNo i i (s.nextSample i)] →
    exec (.prsEntry c i evid) s =
      .next ((s.withInst i { s.inst i with tstk := 0, ph := { (s.inst i).ph with pressed := .oper } }).withRes
        (.step .notDone)) ∧
    (s.nextSample i = false → exec (.prsOper i evid) s =
      .next ((p.withInst i { s.inst i with xr := 1, ph := { (s.inst i).ph with pressed := .exit } }).withRes
        (.step .notDone))) ∧
    (s.nextSample i = true → s.cfg.stuckTicks.toNat ≤ (s.tstk i).toNat → exec (.prsOper i evid) s =
      .next ((p.withInst i { s.inst i with xr := 3, ph := { (s.inst i).ph with pressed := .exit } }).withRes
        (.step .notDone))) ∧
    (s.nextSample i = true → (s.tstk i).toNat < s.cfg.stuckTicks.toNat → exec (.prsOper i evid) s =
      .next (p.withRes (.step .notDone))) ∧
    exec (.prsExit i evid) s =
      .next ((s.withInst i { s.inst i with ph := { (s.inst i).ph with pressed := .finished } }).withRes
        (.step (.done evid (BitVec.ofNat 8 i) (s.xr i))))

/-! ### Stuck -/

/-- The spec's decision D16 (rule R124): STK.ENTRY captures the event identifier and sets the phase. -/
def Obligations.StuckEntryCaptures : Prop :=
  ∀ c i evid (s : State), i < s.count →
    exec (.stkEntry c i evid) s =
      .next ((s.withInst i { s.inst i with xr := evid, ph := { (s.inst i).ph with stuck := .oper } }).withRes
        (.step .notDone))

/-- Rules R125 and R126: STK.OPER pulls channel 0 under `STUCK_CH0` and its own channel otherwise, and fires on a 0;
STK.EXIT emits the current identifier, the instance's own index and `RSN_UNSTUCK`. That Stuck emits the incoming
identifier is the spec's decision D14 (rule R128). -/
def Obligations.StuckStepsSampleTheChosenChannel : Prop :=
  ∀ i evid (s : State) c p, i < s.count → c = (if s.cfg.stuckCh0 then 0 else i) →
    p = (s.withPull c).withRecords [.pull s.tickNo i c (s.nextSample c)] →
    (s.nextSample c = false → exec (.stkOper i evid) s =
      .next ((p.withInst i { s.inst i with ph := { (s.inst i).ph with stuck := .exit } }).withRes (.step .notDone))) ∧
    (s.nextSample c = true → exec (.stkOper i evid) s = .next (p.withRes (.step .notDone))) ∧
    exec (.stkExit i evid) s =
      .next ((s.withInst i { s.inst i with ph := { (s.inst i).ph with stuck := .finished } }).withRes
        (.step (.done evid (BitVec.ofNat 8 i) 4)))

/-! ### STEP and the control word -/

/-- The spec's decision D28 (rule R145): NOSTEP takes no step: nothing changes and the sentinel is the answer. -/
def Obligations.NoStepChangesNothing : Prop :=
  ∀ r p i evid (s : State), i < s.count → exec (.noStep r p i evid) s = .next (s.withRes (.state .noState))

/-- The spec's decisions D7 and D9 (rules R110, R62): a well-formed STEP of an instance at one of the six states completes
and is the operation its control word decodes to; a malformed one records error class (a) and does nothing else. At
the sentinel and at code 7 there is no step and nothing is raised (rule R197; log entry 14). -/
def Obligations.StepRunsTheControlWord : Prop :=
  ∀ i evid (s : State), i < s.count →
    ((s.as i ≠ .noState ∧ s.as i ≠ .reserved7) →
      exec (.step (s.as i) i true evid true) s = exec (decode (.cw (controlWord (s.inst i))) (stepOperands i evid)) s ∧
      (∃ t, exec (.step (s.as i) i true evid true) s = .next t) ∧
      ∀ ev rv, ev = false ∨ rv = false → exec (.step (s.as i) i ev evid rv) s =
        .next ((s.withRecords [.err s.tickNo (some i) .malformed]).withRes (.step .notDone))) ∧
    ((s.as i = .noState ∨ s.as i = .reserved7) → ∀ ev rv, exec (.step (s.as i) i ev evid rv) s =
      .next (s.withRes (.step .notDone)))

/-- Derived in the spec (rules R111, R127): one STEP moves no phase but that of its own state function, and that one
along the life cycle; it never writes `AS`. -/
def Obligations.StepMovesOnePhaseAlongTheLifeCycle : Prop :=
  ∀ st i ev evid rv (s : State) t, exec (.step st i ev evid rv) s = .next t → i < s.count →
    t.as i = s.as i ∧ ∀ f, (funcOf st ≠ some f → t.ph i f = s.ph i f) ∧ PhaseMove f (s.ph i f) (t.ph i f)

/-- Derived in the spec (rule R30): a step, and a whole DISPATCH, of instance `i` writes no register of another
instance and none of the global registers. -/
def Obligations.StepOfOneInstanceLeavesTheOthers : Prop :=
  ∀ st i j ev evid rv (s : State) t, i ≠ j →
    (exec (.step st i ev evid rv) s = .next t ∨ exec (.dispatch i st ev evid rv) s = .next t) →
    t.inst j = s.inst j ∧ t.drvEn = s.drvEn ∧ t.qh = s.qh ∧ t.tickid = s.tickid ∧ t.cfg = s.cfg ∧ t.count = s.count

/-! ### Dispatch, rows and actions -/

/-- Rules R140, R142 to R145 (of them R143 and R145 the spec's decisions): DISPATCH completes; it is one STEP and, when that step is done, the rows of the ROM tried in
order, the first that matches giving the next state; no match is error class (b) and the sentinel. Given the sentinel
or code 7 it does nothing. -/
def Obligations.DispatchIsOneStepThenTheRowSearch : Prop :=
  ∀ i st ev evid rv (s : State), i < s.count →
    ((st = .noState ∨ st = .reserved7) →
      exec (.dispatch i st ev evid rv) s = .next (s.withRes (.state .noState))) ∧
    ((st ≠ .noState ∧ st ≠ .reserved7) →
      ∃ t r, exec (.step st i ev evid rv) s = .next t ∧ t.res = .step r ∧
        (r = .notDone → exec (.dispatch i st ev evid rv) s = .next (t.withRes (.state st))) ∧
        ∀ id data rsn, r = .done id data rsn →
          ∃ u, (∃ n, searchByOps t.cfg.table ⟨i, st, id, data, rsn⟩ t = some (some n, u) ∧
              exec (.dispatch i st ev evid rv) s = .next (u.withRes (.state n))) ∨
            (searchByOps t.cfg.table ⟨i, st, id, data, rsn⟩ t = some (none, u) ∧
              exec (.dispatch i st ev evid rv) s =
                .next ((u.withRecords [.err u.tickNo (some i) .unmatched]).withRes (.state .noState))))

/-- The spec's decisions D18, D19 and D20 (rules R141, R151 to R161): a ROM row, a default row by its word, gives no
next state and does nothing when it does not match, and otherwise runs its action and gives its next state. Three
clauses are the model's: what a row does when it is run alone, outside the search of DISPATCH: it answers its next
state, runs its action and leaves `AS` to its caller (log entry 16, DESIGN CHOICE); inside `RowFits`, that a row
whose `cur` is the sentinel or code 7 never matches, even handed that state (log entry 10, DEDUCED); and that code 7
as next state is the sentinel (log entry 9, DEDUCED from R68). -/
def Obligations.RowMatchesThenActsThenGivesNext : Prop :=
  ∀ instr w x (s : State), rowOf instr = some (w, x) → x.i < s.count →
    (¬ RowFits w x.s x.evoId x.evoData x.rsn s → exec instr s = .next (s.withRes (.row none))) ∧
    (RowFits w x.s x.evoId x.evoData x.rsn s →
      exec instr s = .next
        ((match w.act with
          | .nop => s
          | .notify => notified x.i x.evoId x.evoData x.rsn s).withRes
            (.row (some (if w.next = StateId.reserved7 then .noState else w.next)))))

/-- The spec's decision D20 (rules R66, R69): a ROM word acts as the row its fields spell, whether or not it is one of
the default words. -/
def Obligations.DefaultRowsActAsTheirWords : Prop :=
  ∀ w x (s : State), exec (decodeRow w x) s = exec (.row (.ofWord w) x) s

/-- The spec's decisions D18 and D20 (rules R141, R68): MATCH answers whether the row fits the exit outputs and changes
nothing. That a row whose `cur` is the sentinel or code 7 never matches, even handed that state, is the model's reading
of R68, log entry 10. -/
def Obligations.MatchAnswersTheFourComparisons : Prop :=
  ∀ w st evoId evoData rsn (s : State), ∃ b, exec (.matchRow w st evoId evoData rsn) s = .next (s.withRes (.bit b)) ∧
    (b = true ↔ RowFits w st evoId evoData rsn s)

/-- R146: ACT_NOP changes nothing. -/
def Obligations.ActNopChangesNothing : Prop :=
  ∀ i evoId evoData rsn (s : State), i < s.count → exec (.actNop i evoId evoData rsn) s = .next (s.withRes .nothing)

/-- R147: ACT_NOTIFY posts the derived identifier with the handle `QH` when it is not `EV_NONE`, records a failed post,
and changes nothing else. -/
def Obligations.ActNotifyPostsTheDerivedIdentifier : Prop :=
  ∀ i evoId evoData rsn (s : State), i < s.count →
    exec (.actNotify i evoId evoData rsn) s = .next ((notified i evoId evoData rsn s).withRes .nothing)

/-- The spec's decision D21 (rule R148): OUTWARD answers the identifier the reason stands for and changes nothing. -/
def Obligations.OutwardAnswersTheIdentifierOfTheReason : Prop :=
  ∀ evoId rsn (s : State), exec (.outward evoId rsn) s = .next (s.withRes (.ident (outwardOf s.cfg evoId rsn)))

/-- Derived in the spec (rule R163, item 1): with the default table and a legal build at most one row matches any exit
outputs, whatever `TICKID` is. -/
def Obligations.DefaultTableMatchesAtMostOneRow : Prop :=
  ∀ (s : State) st evoId evoData rsn (j k : Nat) (u v : Word), s.cfg.wf = true → s.cfg.table = defaultTable →
    s.cfg.table[j]? = some u → s.cfg.table[k]? = some v →
    RowFits (Row.ofWord u) st evoId evoData rsn s → RowFits (Row.ofWord v) st evoId evoData rsn s → j = k

/-- Derived in the spec (rule R162): with the default table DISPATCH moves only along the edges of the state graph, or
to the sentinel. -/
def Obligations.DefaultTableFollowsTheStateGraph : Prop :=
  ∀ i st ev evid rv (s : State) t n, s.cfg.table = defaultTable →
    exec (.dispatch i st ev evid rv) s = .next t → t.res = .state n → GraphMove st n

/-- Derived in the spec (rules R55, R197): one DISPATCH appends to the history, in order, at most a pull and a timeout
error, or a post and a post failure, or one other error, each with its instance and the current tick. -/
def Obligations.DispatchMakesAtMostOneRequest : Prop :=
  ∀ i st ev evid rv (s : State) t, exec (.dispatch i st ev evid rv) s = .next t →
    ∃ rs, t.history = s.history ++ rs ∧ CallRecords s.tickNo i rs

/-! ### Filter -/

/-- R90: FILTER.SEED writes 0x01 and nothing else. -/
def Obligations.FilterSeedWritesOne : Prop :=
  ∀ i (s : State), i < s.count →
    exec (.filterSeed i) s = .next ((s.withInst i { s.inst i with acc := 0x01 }).withRes .nothing)

/-- R91: FILTER.SHIFT writes `{ACC[6:0], b}` and nothing else. -/
def Obligations.FilterShiftTakesTheSampleInBitZero : Prop :=
  ∀ i b (s : State), i < s.count →
    exec (.filterShift i b) s =
      .next ((s.withInst i { s.inst i with acc := shifted (s.acc i) b }).withRes .nothing)

/-- R92: FILTER.CLASS answers *released* at 0x00, *pressed* at 0xFF and neither elsewhere, and changes nothing. -/
def Obligations.FilterClassQualifiesTheTwoExtremes : Prop :=
  ∀ i (s : State), i < s.count → ∃ q, exec (.filterClass i) s = .next (s.withRes (.qual q)) ∧
    (q = .released ↔ s.acc i = 0x00) ∧ (q = .pressed ↔ s.acc i = 0xFF)

/-- Derived in the spec (rule R93): after FILTER.SEED and the samples `bs` in pull order, bit `j` of `ACC` is the
sample pulled `j` before the last, the seed 1 where `j` is their number, and 0 above. -/
def Obligations.AccumulatorHoldsTheSampleHistory : Prop :=
  ∀ i (bs : List Bool) (s : State), i < s.count → ∃ t, runOps (.filterSeed i :: bs.map (.filterShift i)) s = some t ∧
    ∀ j < 8, (t.acc i).getLsbD j = ((bs.reverse ++ [true])[j]?).getD false

/-- Derived in the spec (rule R94): a confirm state whose samples are `n` ones qualifies *pressed* exactly from the 7th
on, and one whose samples are `n` zeros qualifies *released* exactly from the 8th on. -/
def Obligations.PressNeedsSevenOnesReleaseEightZeros : Prop :=
  ∀ i n (s : State), i < s.count → ∃ t u,
    runOps (.filterSeed i :: (List.replicate n true).map (.filterShift i)) s = some t ∧
    runOps (.filterSeed i :: (List.replicate n false).map (.filterShift i)) s = some u ∧
    (t.acc i = 0xFF ↔ 7 ≤ n) ∧ t.acc i ≠ 0x00 ∧ (u.acc i = 0x00 ↔ 8 ≤ n) ∧ u.acc i ≠ 0xFF

/-! ### Timers -/

/-- TIMER.ARM clears the one timer it names (rule R101). -/
def Obligations.TimerArmClearsItsTimer : Prop :=
  ∀ i (s : State), i < s.count →
    exec (.timerArm .tdb i) s = .next ((s.withInst i { s.inst i with tdb := 0 }).withRes .nothing) ∧
    exec (.timerArm .tstk i) s = .next ((s.withInst i { s.inst i with tstk := 0 }).withRes .nothing)

/-- The spec's decisions D2 and D3 (rule R102): TIMER.ADVANCE adds one to both timers of every instance, saturating at
65535, and changes nothing else. -/
def Obligations.TimerAdvanceSaturates : Prop :=
  ∀ (s : State), ∃ t, exec .timerAdvance s = .next t ∧ t.count = s.count ∧
    (∀ i < s.count, t.chan i = s.chan i ∧ (t.tdb i).toNat = min ((s.tdb i).toNat + 1) 65535 ∧
      (t.tstk i).toNat = min ((s.tstk i).toNat + 1) 65535 ∧
      t.inst i = { s.inst i with tdb := t.tdb i, tstk := t.tstk i }) ∧
    { t with lanes := s.lanes } = s.withRes .nothing

/-- The spec's decision D3 (rule R103): TIMER.EXPIRED answers whether the timer is at or above the limit, unsigned, and
changes nothing. -/
def Obligations.TimerExpiredAtOrAboveTheLimit : Prop :=
  ∀ i limit (s : State), i < s.count → ∃ b c,
    exec (.timerExpired .tdb i limit) s = .next (s.withRes (.bit b)) ∧
    exec (.timerExpired .tstk i limit) s = .next (s.withRes (.bit c)) ∧
    (b = true ↔ limit.toNat ≤ (s.tdb i).toNat) ∧ (c = true ↔ limit.toNat ≤ (s.tstk i).toNat)

/-- Derived in the spec (rule R105): `k` advances after it is armed a timer reads `k`, or 65535 from there on. -/
def Obligations.ArmedTimerCountsTheAdvances : Prop :=
  ∀ tm i k (s : State), i < s.count → ∃ t, runOps (.timerArm tm i :: List.replicate k .timerAdvance) s = some t ∧
    (t.timer tm i).toNat = min k 65535

/-! ### Ports -/

/-- The spec's decision D31 (rule R42): PULL answers the next sample of its channel, consumes exactly that one and
touches no register; the k-th pull returns the k-th listed sample and then the level. -/
def Obligations.PullConsumesOneSampleOfItsChannel : Prop :=
  ∀ i c (s : State), c < s.count →
    exec (.pull i c) s =
      .next (((s.withPull c).withRecords [.pull s.tickNo i c (s.nextSample c)]).withRes (.bit (s.nextSample c))) ∧
    (∀ b, (s.chan c).samples[(s.chan c).pulled]? = some b → s.nextSample c = b) ∧
    ((s.chan c).samples.length ≤ (s.chan c).pulled → s.nextSample c = (s.chan c).level) ∧
    ∀ d < s.count, ((s.withPull c).chan d).pulled = (s.chan d).pulled + (if d = c then 1 else 0)

/-- The spec's decision D32 (rules R45, R46): POST hands over one event, answers the queue's next answer and touches no
register. -/
def Obligations.PostAnswersAndTouchesNoRegister : Prop :=
  ∀ i qh id data (s : State), exec (.post i qh id data) s =
    .next ((s.withPost.withRecords [.post s.tickNo i qh id data s.nextAnswer]).withRes (.bit s.nextAnswer))

/-- R27: the block never depends on the queue's answers. Where a step of `s` gives a next state, the step of a state that
differs from `s` in the queue, the records and the value last returned gives one that differs from it in the queue and
the records only (with nothing at the port the value last returned stays too). -/
def Obligations.QueueAnswersNeverReachTheBlock : Prop :=
  ∀ (s : State) t q h r, step s = .next t → ∃ t',
    step { s with queue := q, history := h, res := r } = .next t' ∧
    t' = { t with queue := t'.queue, history := t'.history, res := if s.port.isEmpty then r else t.res }

/-! ### Fetch and decode -/

/-- The form of a step: with a request at the port the operation its word decodes to runs in the state without that
request; a host command word is decoded as it stands, a `control` request fetches the control word of its instance, a
`romRow` request the row of the ROM. With nothing at the port the block is idle and holds its state (rule R208). The
requests other than `command` are the model's, log entry 7. -/
def Obligations.StepRunsTheFetchedOperation : Prop :=
  ∀ (s : State), (s.port = [] → step s = .next s) ∧
    (∀ w rest, s.port = .command w :: rest → step s = exec (decode (.hc w) .zero) { s with port := rest }) ∧
    (∀ i evid rest, s.port = .control i evid :: rest → i < s.count →
      step s = exec (decode (.cw (controlWord (s.inst i))) (stepOperands i evid)) { s with port := rest }) ∧
    (∀ r x rest w, s.port = .romRow r x :: rest → s.cfg.table[r]? = some w →
      step s = exec (decode (.row w) (rowOperands x)) { s with port := rest }) ∧
    (∀ a i evoId evoData rsn rest, s.port = .action a i evoId evoData rsn :: rest →
      step s = exec (decode (.act a) (rowOperands ⟨i, .noState, evoId, evoData, rsn⟩)) { s with port := rest })

/-- Decoding a few words written out from the spec's encodings: host commands, control words, the actions and a row
(30_encoding.md sections 2 to 4; the words of V37, V38 and V39). -/
def Obligations.WordsOfTheSpecDecode : Prop :=
  decodeHC 0x00000000 = .reset 0 ∧
  decodeHC 0x401000A5 = .setup 0 0x10 0x00A5 ∧
  decodeHC 0xB0107E99 = .tick true true 0 0x10 0x7E 0x99 ∧
  decodeHC 0x90100000 = .tick false true 0 0x10 0 0 ∧
  decodeHC 0xC0000000 = .hcReserved 0 ∧
  (∀ i evid, decodeCW 0x0D i evid = .cnfOper .press i evid ∧ decodeCW 0x17 i evid = .cnfEntry .release .finished i evid ∧
    decodeCW 0x04 i evid = .startEntry .uninit i evid ∧ decodeCW 0x1A i evid = .stkExit i evid) ∧
  (∀ i id data rsn, decodeAct 0 i id data rsn = .actNop i id data rsn ∧
    decodeAct 1 i id data rsn = .actNotify i id data rsn) ∧
  (∀ x, decodeRow 0x83FC07A0 x = .row6 x) ∧
  Row.ofWord 0x83FC07A0 = ⟨.pressed, .tick, 0xFF, false, 3, .stuck, .notify, 0⟩

/-- Decode undoes encode: for every well-formed operation that has a word, with every operand at every value. The
encodings are the spec's decisions D9, D20 and D22. -/
def Obligations.DecodeUndoesEncode : Prop :=
  ∀ i c, i.wf = true → encode i = some c → decode c (operandsOf i) = i

/-- Encode undoes decode: no bit of any word is dropped, ignored and reserved ones included. -/
def Obligations.EncodeUndoesDecode : Prop :=
  ∀ c o, encode (decode c o) = some c

/-! ### Invariants -/

/-- The state after reset, for every legal build, every stream of each of its `N` channels and every queue, is legal;
so is `State.reset` (rules R28, R220; its build and free values are the model's, log entries 1 to 3). -/
def Obligations.InvariantHoldsAtReset : Prop :=
  (∀ c streams q, c.wf = true → streams.length = c.n → (State.resetWith c streams q).Inv) ∧ State.reset.Inv

/-- Derived in the spec (rules R15, R113, R120, R123): every step keeps the invariant: a legal build, `N` register
copies, no active state at code 7, every inactive state function idle, Start never in `P_OPER`, and a legal reason
latched where a confirm state or Pressed is about to exit. That no step makes an active state of code 7 rests, for a
table with a `next` field of 7, on the model's reading of R68 (log entry 9, DEDUCED, unsafe for such a table): the
model gives the sentinel at once, where the pseudocode of R140 as written returns 7. -/
def Obligations.EveryStepKeepsTheInvariant : Prop :=
  ∀ (s : State) t, s.Inv → step s = .next t → t.Inv

/-- Rules R24 and R23 (last paragraph): no step writes the ROM or a parameter, or changes the number of instances. -/
def Obligations.NoStepWritesTheRomOrTheBuild : Prop :=
  ∀ (s : State) t, step s = .next t → t.cfg = s.cfg ∧ t.count = s.count

/-- The spec's decision D28 (rule R145): an instance at the sentinel stays there through every step but RESET. -/
def Obligations.SentinelIsLeftByResetOnly : Prop :=
  ∀ (s : State) t i, i < s.count → s.as i = .noState → step s = .next t →
    (∀ w rest ig, s.port = .command w :: rest → decodeHC w ≠ .reset ig) → t.as i = .noState

/-- Rules R178 and R179 (the latter the spec's decision D26): after every accepted TICK `DRV_EN` is 0
exactly when under GLOBAL some instance is at the sentinel, the halt leaves exactly one halt record and the re-arming
none, and the records of the tick come highest instance first (rules R55, R198), all with its number. -/
def Obligations.TickRecordsInOrderAndHaltsOnce : Prop :=
  ∀ ev rv ig evid evdata aux (s : State) t, s.drvEn = true → exec (.tick ev rv ig evid evdata aux) s = .next t →
    (t.drvEn = false ↔ s.cfg.failPolicy = .globalHalt ∧ t.someDead) ∧
    t.tickNo = s.tickNo + 1 ∧
    ∃ rs, t.history = s.history ++ rs ++ (if t.drvEn then [] else [.halt (s.tickNo + 1)]) ∧
      (∀ r ∈ rs, r.tickOf = s.tickNo + 1 ∧ ∃ i < s.count, r.who = some i) ∧
      rs.Pairwise fun a b => ∀ i j, a.who = some i → b.who = some j → j ≤ i

/-- Derived in the spec (rule R163, items 2 and 3): with the default table and a host that gives only well-formed TICKs
carrying `TICKID`, every step keeps every instance driven: no instance ever reaches the sentinel, `DRV_EN` is never
cleared, and no unmatched transition is recorded. -/
def Obligations.DisciplinedHostNeverLosesAnInstance : Prop :=
  ∀ (s : State) t, s.Disciplined → step s = .next t →
    t.Disciplined ∧ (s.drvEn = true → t.drvEn = true) ∧
      ∃ rs, t.history = s.history ++ rs ∧ ∀ r ∈ rs, r.isUnmatched = false

/-- Whatever the registers hold before, a failed or halted block's included, RESET then SETUP leave a state of a
disciplined run with the timer armed (rules R221, R223, R224), given a legal build, `N` register copies, the default
table and a port that is empty or holds only well-formed TICKs carrying the identifier SETUP gives. -/
def Obligations.BootStartsADisciplinedRun : Prop :=
  ∀ (s : State) ig ig' tickid qh, s.cfg.wf = true → s.lanes.length = s.cfg.n → s.cfg.table = defaultTable →
    (∀ q ∈ s.port, q.disciplined tickid) →
    ∃ t, runOps [.reset ig, .setup ig' tickid qh] s = some t ∧ t.Disciplined ∧ t.drvEn = true ∧
      t.tickid = tickid ∧ t.qh = qh ∧ t.port = s.port

/-! ### Whole-machine rules -/

/-- Derived in the spec (rules R30, R10, R56): where Stuck samples its own channel, what a TICK does to one button, its
registers and its channel, depends on nothing but that button, the build, `TICKID` and `DRV_EN`: not on any other
button, nor on how many there are. `STUCK_CH0` = true, the default build, is left out, as R30 does: there a stuck
instance takes samples of channel 0. -/
def Obligations.ButtonsDoNotInterfere : Prop :=
  ∀ ev rv ig evid evdata aux (s s' t t' : State) (i : Nat) (l : Lane), s.cfg.stuckCh0 = false → s'.cfg = s.cfg → s'.tickid = s.tickid →
    s'.drvEn = s.drvEn → s.lanes[i]? = some l → s'.lanes[i]? = some l →
    exec (.tick ev rv ig evid evdata aux) s = .next t → exec (.tick ev rv ig evid evdata aux) s' = .next t' →
    t.lanes[i]? = t'.lanes[i]?

/-- Derived in the spec (rule R229, first row of its table): with the default table and a debounce window of at most 6
ticks, from reset, no run of host commands of any length posts anything. -/
def Obligations.ShortWindowNeverPosts : Prop :=
  ∀ c streams q (words : List Word) k (t : State), c.wf = true → c.table = defaultTable → c.debounceTicks.toNat ≤ 6 →
    runSteps k { State.resetWith c streams q with port := words.map Request.command } = some t →
    ∀ r ∈ t.history, r.isPost = false

/-- Derived in the spec (rule R235, third row of its table, for a window of at least 8 ticks; rule R229, first column
of its table, for a window of 7): with the default table and a window of at least 7 ticks, an instance in REL.OPER
whose next eight samples are 1 posts "pressed" with its index in the eleventh TICK from then (tick T+10 where T is the
first of them) and is in Pressed after it. Left out are the values `STUCK_CH0` = true, where a stuck instance takes
samples of channel 0, and `FAIL_POLICY` = GLOBAL, where a failure of another instance can halt the block; both are
values of the default build. -/
def Obligations.CleanPressIsReportedTenTicksLater : Prop :=
  ∀ (s : State) i, s.Inv → s.cfg.table = defaultTable → 7 ≤ s.cfg.debounceTicks.toNat → s.cfg.stuckCh0 = false →
    s.cfg.failPolicy = .perInstance → s.drvEn = true → i < s.count → s.as i = .released →
    s.ph i .released = .oper →
    (∀ k < 8, (s.chan i).samples.getD ((s.chan i).pulled + k) (s.chan i).level = true) →
    ∃ t rs, runOps (List.replicate 11 (.tick true true 0 s.tickid 0 0)) s = some t ∧ t.as i = .pressed ∧
      t.history = s.history ++ rs ∧
      ∃ ok, Record.post (s.tickNo + 11) i s.qh s.cfg.evPressed (BitVec.ofNat 8 i) ok ∈ rs

/-- The model's choice (log entries 7, 13 and 15): where the model stops. Every operation that is
checked against an instance index stops with the fault that names it where the block has no such instance; PULL so for
its channel; the fetch of a `control` request so for its instance, and that of a `romRow` request for its row. Every
operation whose instance and channel exist answers a next state, as do the operations checked against neither (POST
among them, whatever its requester, log entry 15). The spec says no access to an absent instance, channel or row can
arise (rules R10, R48). -/
def Obligations.AbsentInstanceOrChannelFaults : Prop :=
  ∀ (s : State),
    (∀ instr i, instanceOf instr = some i → s.count ≤ i → exec instr s = .fault (.noSuchInstance i)) ∧
    (∀ instr c, channelOf instr = some c → s.count ≤ c → exec instr s = .fault (.noSuchChannel c)) ∧
    (∀ instr, (∀ i, instanceOf instr = some i → i < s.count) → (∀ c, channelOf instr = some c → c < s.count) →
      ∃ t, exec instr s = .next t) ∧
    (∀ i evid rest, s.port = .control i evid :: rest → s.count ≤ i → step s = .fault (.noSuchInstance i)) ∧
    (∀ r x rest, s.port = .romRow r x :: rest → s.cfg.table.length ≤ r → step s = .fault (.noSuchRow r))

/-- The spec's decisions D22 and D1 (rules R183, R184): the status outputs show the registers, `cw[i]` is the control
word, and the tick generator's command is a disciplined one, given exactly while `DRV_EN` is 1. -/
def Obligations.StatusOutputsAndGenerator : Prop :=
  ∀ (s : State), s.drvEnOut = s.drvEn ∧ s.tickIdOut = s.tickid ∧
    (∀ i < s.count, s.asOut i = some (s.as i) ∧ ∃ w, s.cwOut i = some w ∧ bits 4 2 w = (s.as i).code ∧
      ∀ f, funcOf (s.as i) = some f → bits 1 0 w = (s.ph i f).code) ∧
    (s.drvEn = false → generatorTick s = none) ∧
    (s.drvEn = true → ∃ g w, generatorTick s = some g ∧ hostWord g = some w ∧
      (Request.command w).disciplined s.tickid)
end

