-- ==== Sys2Proof/Laws/State.lean ====
section
/-! SUPPORT. One lemma per field per update of State, true by rfl. -/

namespace Sys2Proof.Machine

open Sys2Proof

@[simp] theorem mapInst_cfg (s : State) (i : Nat) (f : Inst → Inst) : (s.mapInst i f).cfg = s.cfg := rfl
@[simp] theorem mapInst_lanes (s : State) (i : Nat) (f : Inst → Inst) : (s.mapInst i f).lanes = s.lanes.modify i fun l => { l with inst := f l.inst } := rfl
@[simp] theorem mapInst_drvEn (s : State) (i : Nat) (f : Inst → Inst) : (s.mapInst i f).drvEn = s.drvEn := rfl
@[simp] theorem mapInst_qh (s : State) (i : Nat) (f : Inst → Inst) : (s.mapInst i f).qh = s.qh := rfl
@[simp] theorem mapInst_tickid (s : State) (i : Nat) (f : Inst → Inst) : (s.mapInst i f).tickid = s.tickid := rfl
@[simp] theorem mapInst_queue (s : State) (i : Nat) (f : Inst → Inst) : (s.mapInst i f).queue = s.queue := rfl
@[simp] theorem mapInst_history (s : State) (i : Nat) (f : Inst → Inst) : (s.mapInst i f).history = s.history := rfl
@[simp] theorem mapInst_tickNo (s : State) (i : Nat) (f : Inst → Inst) : (s.mapInst i f).tickNo = s.tickNo := rfl
@[simp] theorem mapInst_port (s : State) (i : Nat) (f : Inst → Inst) : (s.mapInst i f).port = s.port := rfl
@[simp] theorem mapInst_res (s : State) (i : Nat) (f : Inst → Inst) : (s.mapInst i f).res = s.res := rfl

@[simp] theorem answer_cfg (s : State) (r : Result) : (s.answer r).cfg = s.cfg := rfl
@[simp] theorem answer_lanes (s : State) (r : Result) : (s.answer r).lanes = s.lanes := rfl
@[simp] theorem answer_drvEn (s : State) (r : Result) : (s.answer r).drvEn = s.drvEn := rfl
@[simp] theorem answer_qh (s : State) (r : Result) : (s.answer r).qh = s.qh := rfl
@[simp] theorem answer_tickid (s : State) (r : Result) : (s.answer r).tickid = s.tickid := rfl
@[simp] theorem answer_queue (s : State) (r : Result) : (s.answer r).queue = s.queue := rfl
@[simp] theorem answer_history (s : State) (r : Result) : (s.answer r).history = s.history := rfl
@[simp] theorem answer_tickNo (s : State) (r : Result) : (s.answer r).tickNo = s.tickNo := rfl
@[simp] theorem answer_port (s : State) (r : Result) : (s.answer r).port = s.port := rfl
@[simp] theorem answer_res (s : State) (r : Result) : (s.answer r).res = r := rfl

@[simp] theorem log_cfg (s : State) (r : Record) : (s.log r).cfg = s.cfg := rfl
@[simp] theorem log_lanes (s : State) (r : Record) : (s.log r).lanes = s.lanes := rfl
@[simp] theorem log_drvEn (s : State) (r : Record) : (s.log r).drvEn = s.drvEn := rfl
@[simp] theorem log_qh (s : State) (r : Record) : (s.log r).qh = s.qh := rfl
@[simp] theorem log_tickid (s : State) (r : Record) : (s.log r).tickid = s.tickid := rfl
@[simp] theorem log_queue (s : State) (r : Record) : (s.log r).queue = s.queue := rfl
@[simp] theorem log_history (s : State) (r : Record) : (s.log r).history = s.history ++ [r] := rfl
@[simp] theorem log_tickNo (s : State) (r : Record) : (s.log r).tickNo = s.tickNo := rfl
@[simp] theorem log_port (s : State) (r : Record) : (s.log r).port = s.port := rfl
@[simp] theorem log_res (s : State) (r : Record) : (s.log r).res = s.res := rfl

@[simp] theorem raise_cfg (s : State) (i : Option Nat) (e : ErrorClass) : (s.raise i e).cfg = s.cfg := rfl
@[simp] theorem raise_lanes (s : State) (i : Option Nat) (e : ErrorClass) : (s.raise i e).lanes = s.lanes := rfl
@[simp] theorem raise_drvEn (s : State) (i : Option Nat) (e : ErrorClass) : (s.raise i e).drvEn = s.drvEn := rfl
@[simp] theorem raise_qh (s : State) (i : Option Nat) (e : ErrorClass) : (s.raise i e).qh = s.qh := rfl
@[simp] theorem raise_tickid (s : State) (i : Option Nat) (e : ErrorClass) : (s.raise i e).tickid = s.tickid := rfl
@[simp] theorem raise_queue (s : State) (i : Option Nat) (e : ErrorClass) : (s.raise i e).queue = s.queue := rfl
@[simp] theorem raise_history (s : State) (i : Option Nat) (e : ErrorClass) : (s.raise i e).history = s.history ++ [.err s.tickNo i e] := rfl
@[simp] theorem raise_tickNo (s : State) (i : Option Nat) (e : ErrorClass) : (s.raise i e).tickNo = s.tickNo := rfl
@[simp] theorem raise_port (s : State) (i : Option Nat) (e : ErrorClass) : (s.raise i e).port = s.port := rfl
@[simp] theorem raise_res (s : State) (i : Option Nat) (e : ErrorClass) : (s.raise i e).res = s.res := rfl

@[simp] theorem halt_cfg (s : State) : (s.halt).cfg = s.cfg := rfl
@[simp] theorem halt_lanes (s : State) : (s.halt).lanes = s.lanes := rfl
@[simp] theorem halt_drvEn (s : State) : (s.halt).drvEn = false := rfl
@[simp] theorem halt_qh (s : State) : (s.halt).qh = s.qh := rfl
@[simp] theorem halt_tickid (s : State) : (s.halt).tickid = s.tickid := rfl
@[simp] theorem halt_queue (s : State) : (s.halt).queue = s.queue := rfl
@[simp] theorem halt_history (s : State) : (s.halt).history = s.history ++ [.halt s.tickNo] := rfl
@[simp] theorem halt_tickNo (s : State) : (s.halt).tickNo = s.tickNo := rfl
@[simp] theorem halt_port (s : State) : (s.halt).port = s.port := rfl
@[simp] theorem halt_res (s : State) : (s.halt).res = s.res := rfl

@[simp] theorem rearm_cfg (s : State) : (s.rearm).cfg = s.cfg := rfl
@[simp] theorem rearm_lanes (s : State) : (s.rearm).lanes = s.lanes := rfl
@[simp] theorem rearm_drvEn (s : State) : (s.rearm).drvEn = true := rfl
@[simp] theorem rearm_qh (s : State) : (s.rearm).qh = s.qh := rfl
@[simp] theorem rearm_tickid (s : State) : (s.rearm).tickid = s.tickid := rfl
@[simp] theorem rearm_queue (s : State) : (s.rearm).queue = s.queue := rfl
@[simp] theorem rearm_history (s : State) : (s.rearm).history = s.history := rfl
@[simp] theorem rearm_tickNo (s : State) : (s.rearm).tickNo = s.tickNo := rfl
@[simp] theorem rearm_port (s : State) : (s.rearm).port = s.port := rfl
@[simp] theorem rearm_res (s : State) : (s.rearm).res = s.res := rfl

@[simp] theorem pullBit_cfg (i c : Nat) (s : State) : ((pullBit i c s).2).cfg = s.cfg := rfl
@[simp] theorem pullBit_lanes (i c : Nat) (s : State) : ((pullBit i c s).2).lanes = s.lanes.modify c fun l => { l with chan := { l.chan with pulled := l.chan.pulled + 1 } } := rfl
@[simp] theorem pullBit_drvEn (i c : Nat) (s : State) : ((pullBit i c s).2).drvEn = s.drvEn := rfl
@[simp] theorem pullBit_qh (i c : Nat) (s : State) : ((pullBit i c s).2).qh = s.qh := rfl
@[simp] theorem pullBit_tickid (i c : Nat) (s : State) : ((pullBit i c s).2).tickid = s.tickid := rfl
@[simp] theorem pullBit_queue (i c : Nat) (s : State) : ((pullBit i c s).2).queue = s.queue := rfl
@[simp] theorem pullBit_history (i c : Nat) (s : State) : ((pullBit i c s).2).history = s.history ++ [.pull s.tickNo i c (s.nextSample c)] := rfl
@[simp] theorem pullBit_tickNo (i c : Nat) (s : State) : ((pullBit i c s).2).tickNo = s.tickNo := rfl
@[simp] theorem pullBit_port (i c : Nat) (s : State) : ((pullBit i c s).2).port = s.port := rfl
@[simp] theorem pullBit_res (i c : Nat) (s : State) : ((pullBit i c s).2).res = s.res := rfl

@[simp] theorem postEvent_cfg (i : Nat) (qh : Half) (id data : Byte) (s : State) : ((postEvent i qh id data s).2).cfg = s.cfg := rfl
@[simp] theorem postEvent_lanes (i : Nat) (qh : Half) (id data : Byte) (s : State) : ((postEvent i qh id data s).2).lanes = s.lanes := rfl
@[simp] theorem postEvent_drvEn (i : Nat) (qh : Half) (id data : Byte) (s : State) : ((postEvent i qh id data s).2).drvEn = s.drvEn := rfl
@[simp] theorem postEvent_qh (i : Nat) (qh : Half) (id data : Byte) (s : State) : ((postEvent i qh id data s).2).qh = s.qh := rfl
@[simp] theorem postEvent_tickid (i : Nat) (qh : Half) (id data : Byte) (s : State) : ((postEvent i qh id data s).2).tickid = s.tickid := rfl
@[simp] theorem postEvent_queue (i : Nat) (qh : Half) (id data : Byte) (s : State) : ((postEvent i qh id data s).2).queue = { s.queue with posted := s.queue.posted + 1 } := rfl
@[simp] theorem postEvent_history (i : Nat) (qh : Half) (id data : Byte) (s : State) : ((postEvent i qh id data s).2).history = s.history ++ [.post s.tickNo i qh id data s.nextAnswer] := rfl
@[simp] theorem postEvent_tickNo (i : Nat) (qh : Half) (id data : Byte) (s : State) : ((postEvent i qh id data s).2).tickNo = s.tickNo := rfl
@[simp] theorem postEvent_port (i : Nat) (qh : Half) (id data : Byte) (s : State) : ((postEvent i qh id data s).2).port = s.port := rfl
@[simp] theorem postEvent_res (i : Nat) (qh : Half) (id data : Byte) (s : State) : ((postEvent i qh id data s).2).res = s.res := rfl

@[simp] theorem timerAdvance_cfg (s : State) : (timerAdvance s).cfg = s.cfg := rfl
@[simp] theorem timerAdvance_lanes (s : State) : (timerAdvance s).lanes = s.lanes.map advanceLane := rfl
@[simp] theorem timerAdvance_drvEn (s : State) : (timerAdvance s).drvEn = s.drvEn := rfl
@[simp] theorem timerAdvance_qh (s : State) : (timerAdvance s).qh = s.qh := rfl
@[simp] theorem timerAdvance_tickid (s : State) : (timerAdvance s).tickid = s.tickid := rfl
@[simp] theorem timerAdvance_queue (s : State) : (timerAdvance s).queue = s.queue := rfl
@[simp] theorem timerAdvance_history (s : State) : (timerAdvance s).history = s.history := rfl
@[simp] theorem timerAdvance_tickNo (s : State) : (timerAdvance s).tickNo = s.tickNo := rfl
@[simp] theorem timerAdvance_port (s : State) : (timerAdvance s).port = s.port := rfl
@[simp] theorem timerAdvance_res (s : State) : (timerAdvance s).res = s.res := rfl

@[simp] theorem withInst_cfg (s : State) (i : Nat) (x : Inst) : (s.withInst i x).cfg = s.cfg := rfl
@[simp] theorem withInst_lanes (s : State) (i : Nat) (x : Inst) : (s.withInst i x).lanes = s.lanes.modify i fun l => { l with inst := x } := rfl
@[simp] theorem withInst_drvEn (s : State) (i : Nat) (x : Inst) : (s.withInst i x).drvEn = s.drvEn := rfl
@[simp] theorem withInst_qh (s : State) (i : Nat) (x : Inst) : (s.withInst i x).qh = s.qh := rfl
@[simp] theorem withInst_tickid (s : State) (i : Nat) (x : Inst) : (s.withInst i x).tickid = s.tickid := rfl
@[simp] theorem withInst_queue (s : State) (i : Nat) (x : Inst) : (s.withInst i x).queue = s.queue := rfl
@[simp] theorem withInst_history (s : State) (i : Nat) (x : Inst) : (s.withInst i x).history = s.history := rfl
@[simp] theorem withInst_tickNo (s : State) (i : Nat) (x : Inst) : (s.withInst i x).tickNo = s.tickNo := rfl
@[simp] theorem withInst_port (s : State) (i : Nat) (x : Inst) : (s.withInst i x).port = s.port := rfl
@[simp] theorem withInst_res (s : State) (i : Nat) (x : Inst) : (s.withInst i x).res = s.res := rfl

@[simp] theorem withPull_cfg (s : State) (c : Nat) : (s.withPull c).cfg = s.cfg := rfl
@[simp] theorem withPull_lanes (s : State) (c : Nat) : (s.withPull c).lanes = s.lanes.modify c fun l => { l with chan := { l.chan with pulled := l.chan.pulled + 1 } } := rfl
@[simp] theorem withPull_drvEn (s : State) (c : Nat) : (s.withPull c).drvEn = s.drvEn := rfl
@[simp] theorem withPull_qh (s : State) (c : Nat) : (s.withPull c).qh = s.qh := rfl
@[simp] theorem withPull_tickid (s : State) (c : Nat) : (s.withPull c).tickid = s.tickid := rfl
@[simp] theorem withPull_queue (s : State) (c : Nat) : (s.withPull c).queue = s.queue := rfl
@[simp] theorem withPull_history (s : State) (c : Nat) : (s.withPull c).history = s.history := rfl
@[simp] theorem withPull_tickNo (s : State) (c : Nat) : (s.withPull c).tickNo = s.tickNo := rfl
@[simp] theorem withPull_port (s : State) (c : Nat) : (s.withPull c).port = s.port := rfl
@[simp] theorem withPull_res (s : State) (c : Nat) : (s.withPull c).res = s.res := rfl

@[simp] theorem withPost_cfg (s : State) : (s.withPost).cfg = s.cfg := rfl
@[simp] theorem withPost_lanes (s : State) : (s.withPost).lanes = s.lanes := rfl
@[simp] theorem withPost_drvEn (s : State) : (s.withPost).drvEn = s.drvEn := rfl
@[simp] theorem withPost_qh (s : State) : (s.withPost).qh = s.qh := rfl
@[simp] theorem withPost_tickid (s : State) : (s.withPost).tickid = s.tickid := rfl
@[simp] theorem withPost_queue (s : State) : (s.withPost).queue = { s.queue with posted := s.queue.posted + 1 } := rfl
@[simp] theorem withPost_history (s : State) : (s.withPost).history = s.history := rfl
@[simp] theorem withPost_tickNo (s : State) : (s.withPost).tickNo = s.tickNo := rfl
@[simp] theorem withPost_port (s : State) : (s.withPost).port = s.port := rfl
@[simp] theorem withPost_res (s : State) : (s.withPost).res = s.res := rfl

@[simp] theorem withRecords_cfg (s : State) (rs : List Record) : (s.withRecords rs).cfg = s.cfg := rfl
@[simp] theorem withRecords_lanes (s : State) (rs : List Record) : (s.withRecords rs).lanes = s.lanes := rfl
@[simp] theorem withRecords_drvEn (s : State) (rs : List Record) : (s.withRecords rs).drvEn = s.drvEn := rfl
@[simp] theorem withRecords_qh (s : State) (rs : List Record) : (s.withRecords rs).qh = s.qh := rfl
@[simp] theorem withRecords_tickid (s : State) (rs : List Record) : (s.withRecords rs).tickid = s.tickid := rfl
@[simp] theorem withRecords_queue (s : State) (rs : List Record) : (s.withRecords rs).queue = s.queue := rfl
@[simp] theorem withRecords_history (s : State) (rs : List Record) : (s.withRecords rs).history = s.history ++ rs := rfl
@[simp] theorem withRecords_tickNo (s : State) (rs : List Record) : (s.withRecords rs).tickNo = s.tickNo := rfl
@[simp] theorem withRecords_port (s : State) (rs : List Record) : (s.withRecords rs).port = s.port := rfl
@[simp] theorem withRecords_res (s : State) (rs : List Record) : (s.withRecords rs).res = s.res := rfl

@[simp] theorem withRes_cfg (s : State) (r : Result) : (s.withRes r).cfg = s.cfg := rfl
@[simp] theorem withRes_lanes (s : State) (r : Result) : (s.withRes r).lanes = s.lanes := rfl
@[simp] theorem withRes_drvEn (s : State) (r : Result) : (s.withRes r).drvEn = s.drvEn := rfl
@[simp] theorem withRes_qh (s : State) (r : Result) : (s.withRes r).qh = s.qh := rfl
@[simp] theorem withRes_tickid (s : State) (r : Result) : (s.withRes r).tickid = s.tickid := rfl
@[simp] theorem withRes_queue (s : State) (r : Result) : (s.withRes r).queue = s.queue := rfl
@[simp] theorem withRes_history (s : State) (r : Result) : (s.withRes r).history = s.history := rfl
@[simp] theorem withRes_tickNo (s : State) (r : Result) : (s.withRes r).tickNo = s.tickNo := rfl
@[simp] theorem withRes_port (s : State) (r : Result) : (s.withRes r).port = s.port := rfl
@[simp] theorem withRes_res (s : State) (r : Result) : (s.withRes r).res = r := rfl

end Sys2Proof.Machine
end

