-- ==== Sys2Proof/Laws/Ops.lean ====
section
/-! SUPPORT. What a register reads after a write, and one lemma per shared operation that says all it can do. -/

namespace Sys2Proof.Machine

open Sys2Proof

/-! ### Buttons -/

/-- Button `j` after the registers of instance `i` were changed. -/
theorem mapInst_getElem? (s : State) (i j : Nat) (f : Inst → Inst) :
    (s.mapInst i f).lanes[j]? =
      (s.lanes[j]?).map fun l => if i = j then { l with inst := f l.inst } else l := by
  simp only [mapInst_lanes, List.getElem?_modify]
  split <;> simp_all

/-- Button `j` after a pull on channel `c`. -/
theorem pullBit_getElem? (i c j : Nat) (s : State) :
    (pullBit i c s).2.lanes[j]? =
      (s.lanes[j]?).map fun l =>
        if c = j then { l with chan := { l.chan with pulled := l.chan.pulled + 1 } } else l := by
  simp only [pullBit_lanes, List.getElem?_modify]
  split <;> simp_all

theorem lane_eq (s : State) (i : Nat) : s.lane i = (s.lanes[i]?).getD absentLane := by
  simp [State.lane]

/-- The read of a button inside 0 to N-1. -/
theorem lane_of_getElem? {s : State} {i : Nat} {l : Lane} (h : s.lanes[i]? = some l) : s.lane i = l := by
  simp [lane_eq, h]

@[simp] theorem mapInst_count (s : State) (i : Nat) (f : Inst → Inst) : (s.mapInst i f).count = s.count := by
  simp [State.count]

@[simp] theorem pullBit_count (i c : Nat) (s : State) : (pullBit i c s).2.count = s.count := by
  simp [State.count]

@[simp] theorem answer_count (s : State) (r : Result) : (s.answer r).count = s.count := rfl
@[simp] theorem raise_count (s : State) (i : Option Nat) (e : ErrorClass) : (s.raise i e).count = s.count := rfl
@[simp] theorem halt_count (s : State) : s.halt.count = s.count := rfl
@[simp] theorem rearm_count (s : State) : s.rearm.count = s.count := rfl
@[simp] theorem postEvent_count (i : Nat) (qh : Half) (id data : Byte) (s : State) :
    (postEvent i qh id data s).2.count = s.count := rfl
@[simp] theorem timerAdvance_count (s : State) : (timerAdvance s).count = s.count := by simp [State.count]

/-! ### Registers and channels after a write -/

theorem mapInst_inst_self (s : State) (i : Nat) (f : Inst → Inst) (h : i < s.count) :
    (s.mapInst i f).inst i = f (s.inst i) := by
  have h' : i < s.lanes.length := h
  simp [State.inst, lane_eq, h']

theorem mapInst_inst_ne (s : State) {i j : Nat} (f : Inst → Inst) (h : i ≠ j) :
    (s.mapInst i f).inst j = s.inst j := by
  simp only [State.inst, lane_eq, mapInst_getElem?, h, if_false]
  cases s.lanes[j]? <;> rfl

@[simp] theorem mapInst_chan (s : State) (i c : Nat) (f : Inst → Inst) : (s.mapInst i f).chan c = s.chan c := by
  simp only [State.chan, lane_eq, mapInst_getElem?]
  cases s.lanes[c]? with
  | none => rfl
  | some l => by_cases h : i = c <;> simp [h]

@[simp] theorem mapInst_nextSample (s : State) (i c : Nat) (f : Inst → Inst) :
    (s.mapInst i f).nextSample c = s.nextSample c := by
  simp [State.nextSample]

@[simp] theorem pullBit_bit (i c : Nat) (s : State) : (pullBit i c s).1 = s.nextSample c := rfl

/-- A pull changes no register. -/
@[simp] theorem pullBit_inst (i c j : Nat) (s : State) : (pullBit i c s).2.inst j = s.inst j := by
  simp only [State.inst, lane_eq, pullBit_getElem?]
  cases s.lanes[j]? with
  | none => rfl
  | some l => by_cases h : c = j <;> simp [h]

@[simp] theorem answer_inst (s : State) (r : Result) (j : Nat) : (s.answer r).inst j = s.inst j := rfl
@[simp] theorem raise_inst (s : State) (i : Option Nat) (e : ErrorClass) (j : Nat) :
    (s.raise i e).inst j = s.inst j := rfl
@[simp] theorem raise_chan (s : State) (i : Option Nat) (e : ErrorClass) (c : Nat) :
    (s.raise i e).chan c = s.chan c := rfl
@[simp] theorem postEvent_inst (i : Nat) (qh : Half) (id data : Byte) (s : State) (j : Nat) :
    (postEvent i qh id data s).2.inst j = s.inst j := rfl
@[simp] theorem postEvent_answer (i : Nat) (qh : Half) (id data : Byte) (s : State) :
    (postEvent i qh id data s).1 = s.nextAnswer := rfl

/-- One more sample of channel `c` is consumed, none of another channel (20_memory.md R42). -/
theorem pullBit_chan_self (i c : Nat) (s : State) (h : c < s.count) :
    (pullBit i c s).2.chan c = { s.chan c with pulled := (s.chan c).pulled + 1 } := by
  have h' : c < s.lanes.length := h
  simp [State.chan, lane_eq, h']

theorem pullBit_chan_ne (i : Nat) {c d : Nat} (s : State) (h : c ≠ d) :
    (pullBit i c s).2.chan d = s.chan d := by
  simp only [State.chan, lane_eq, pullBit_getElem?, h, if_false]
  cases s.lanes[d]? <;> rfl

theorem timerAdvance_inst (s : State) (i : Nat) (h : i < s.count) :
    (timerAdvance s).inst i =
      { s.inst i with tdb := sat16Inc (s.inst i).tdb, tstk := sat16Inc (s.inst i).tstk } := by
  have h' : i < s.lanes.length := h
  simp [State.inst, lane_eq, h', advanceLane]

/-! ### Two writes to one instance are one -/

@[simp] theorem mapInst_mapInst (s : State) (i : Nat) (f g : Inst → Inst) :
    (s.mapInst i f).mapInst i g = s.mapInst i (g ∘ f) := by
  have h : (s.lanes.modify i fun l => { l with inst := f l.inst }).modify i
        (fun l => { l with inst := g l.inst }) =
      s.lanes.modify i fun l => { l with inst := (g ∘ f) l.inst } := by
    apply List.ext_getElem?
    intro j
    simp only [List.getElem?_modify]
    cases s.lanes[j]? with
    | none => rfl
    | some l => by_cases h : i = j <;> simp [h]
  simp [State.mapInst, h]

/-- A change of the registers of instance `i` that depends on their value is a replacement by that value. -/
theorem mapInst_eq_withInst (s : State) (i : Nat) (f : Inst → Inst) :
    s.mapInst i f = s.withInst i (f (s.inst i)) := by
  have h : s.lanes.modify i (fun l => { l with inst := f l.inst }) =
      s.lanes.modify i fun l => { l with inst := f (s.inst i) } := by
    apply List.ext_getElem?
    intro j
    simp only [List.getElem?_modify]
    cases hj : s.lanes[j]? with
    | none => rfl
    | some l =>
      by_cases h : i = j
      · subst h; simp [State.inst, lane_of_getElem? hj]
      · simp [h]
  simp [State.mapInst, State.withInst, h]

/-! ### The check of an instance index -/

/-- All an operation on instance `i` can answer. -/
theorem onInstance_next {i : Nat} {s t u : State} :
    onInstance i s t = .next u ↔ i < s.count ∧ t = u := by
  unfold onInstance
  split <;> simp_all

theorem onInstance_of_lt {i : Nat} {s : State} (h : i < s.count) (t : State) : onInstance i s t = .next t := by
  simp [onInstance, h]

/-- All a step of instance `i` can answer. -/
theorem onStep_next {i : Nat} {s u : State} {r : StepResult × State} :
    onStep i s r = .next u ↔ i < s.count ∧ r.2.answer (.step r.1) = u := onInstance_next

/-! ### Phases -/

@[simp] theorem phases_get_set (p : Phases) (f g : Func) (v : Phase) :
    (p.set f v).get g = if f = g then v else p.get g := by
  cases f <;> cases g <;> rfl

/-- Phases are equal when they read equal. -/
theorem phases_ext {p q : Phases} (h : ∀ f, p.get f = q.get f) : p = q := by
  cases p; cases q
  have h1 := h .start; have h2 := h .released; have h3 := h .confirm; have h4 := h .pressed; have h5 := h .stuck
  simp_all [Phases.get]

end Sys2Proof.Machine
end

