-- ==== Sys2Proof/Laws/Steps.lean ====
section
/-! SUPPORT. What one step of a state function does, said once: a function of the build, the instance's registers and
one sample gives the step's effect, and the step is that effect applied to the state. -/

namespace Sys2Proof.Machine

open Sys2Proof

/-- All a step can do: its result, the instance's registers after it, whether it consumed a sample, and the error it
recorded. -/
structure Effect where
  res : StepResult
  inst : Inst
  pulls : Bool
  err : Option ErrorClass
deriving DecidableEq, Repr

/-- The channel an operate step of state function `f` of instance `i` samples. -/
def sampleChannel (c : Config) (f : Func) (i : Nat) : Nat := if f = .stuck ∧ c.stuckCh0 then 0 else i

/-- The effect of CNF.OPER on the registers `x` with the sample `b`. -/
def confirmEffect (c : Config) (b : Bool) (x : Inst) : Effect :=
  if qualify (shiftIn x.acc b) = .neither then
    if expired x.tdb c.debounceTicks then
      ⟨.notDone, { x with acc := shiftIn x.acc b, xr := rsnTimeout, ph := x.ph.set .confirm .exit }, true,
        some .timeout⟩
    else ⟨.notDone, { x with acc := shiftIn x.acc b }, true, none⟩
  else ⟨.notDone, { x with acc := shiftIn x.acc b, xr := rsnDebounced, ph := x.ph.set .confirm .exit }, true, none⟩

/-- The effect of the phase action of `f` in phase `p` on the registers `x` of instance `i`, the sample being `b`. -/
def actionEffect (c : Config) (f : Func) (p : Phase) (i : Nat) (evid : Byte) (b : Bool) (x : Inst) : Effect :=
  match f, p with
  | .start, .oper => ⟨.notDone, { x with ph := x.ph.set .start .exit }, false, none⟩
  | .start, .exit => ⟨.done evid (evData i) x.xr, { x with ph := x.ph.set .start .finished }, false, none⟩
  | .start, _ => ⟨.notDone, { x with xr := evid, ph := x.ph.set .start .exit }, false, none⟩
  | .released, .oper => ⟨.notDone, if b then { x with ph := x.ph.set .released .exit } else x, true, none⟩
  | .released, .exit => ⟨.done evid (evData i) rsnTwitch, { x with ph := x.ph.set .released .finished }, false, none⟩
  | .released, _ => ⟨.notDone, { x with ph := x.ph.set .released .oper }, false, none⟩
  | .confirm, .oper => confirmEffect c b x
  | .confirm, .exit =>
    ⟨.done (if x.xr = rsnDebounced ∧ x.acc = 0xFF then c.evPressed
        else if x.xr = rsnDebounced ∧ x.acc = 0x00 then c.evReleased else evid) (evData i) x.xr,
      { x with ph := x.ph.set .confirm .finished }, false, none⟩
  | .confirm, _ => ⟨.notDone, { x with acc := 0x01, tdb := 0, ph := x.ph.set .confirm .oper }, false, none⟩
  | .pressed, .oper =>
    ⟨.notDone,
      if b = false then { x with xr := rsnTwitch, ph := x.ph.set .pressed .exit }
      else if expired x.tstk c.stuckTicks then { x with xr := rsnTimeout, ph := x.ph.set .pressed .exit }
      else x, true, none⟩
  | .pressed, .exit => ⟨.done evid (evData i) x.xr, { x with ph := x.ph.set .pressed .finished }, false, none⟩
  | .pressed, _ => ⟨.notDone, { x with tstk := 0, ph := x.ph.set .pressed .oper }, false, none⟩
  | .stuck, .oper => ⟨.notDone, if b = false then { x with ph := x.ph.set .stuck .exit } else x, true, none⟩
  | .stuck, .exit => ⟨.done evid (evData i) rsnUnstuck, { x with ph := x.ph.set .stuck .finished }, false, none⟩
  | .stuck, _ => ⟨.notDone, { x with xr := evid, ph := x.ph.set .stuck .oper }, false, none⟩

/-- The effect of STEP. -/
def stepEffect (c : Config) (st : StateId) (i : Nat) (ev : Bool) (evid : Byte) (rv b : Bool) (x : Inst) : Effect :=
  match funcOf st with
  | none => ⟨.notDone, x, false, none⟩
  | some f =>
    if malformedCall ev rv then ⟨.notDone, x, false, some .malformed⟩
    else actionEffect c f (x.ph.get f) i evid b x

/-- `s` with one sample of channel `c` pulled by instance `i`, where `pulls` says so. -/
def State.pulled (s : State) (pulls : Bool) (i c : Nat) : State := if pulls then (pullBit i c s).2 else s

/-- `s` with an error of instance `i` recorded, where there is one. -/
def State.raised (s : State) (i : Nat) (e : Option ErrorClass) : State :=
  match e with
  | some e => s.raise (some i) e
  | none => s

/-- The effect `e` applied to instance `i`, the sample taken from channel `c`. -/
def Effect.apply (e : Effect) (i c : Nat) (s : State) : StepResult × State :=
  (e.res, ((s.pulled e.pulls i c).withInst i e.inst).raised i e.err)

/-- The channel STEP of state `st` samples. -/
def stepChannel (c : Config) (st : StateId) (i : Nat) : Nat :=
  match funcOf st with
  | some f => sampleChannel c f i
  | none => i

/-! ### Replacing the registers -/

theorem withInst_self (s : State) (i : Nat) : s.withInst i (s.inst i) = s := by
  have h : s.lanes.modify i (fun l => { l with inst := s.inst i }) = s.lanes := by
    apply List.ext_getElem?
    intro j
    simp only [List.getElem?_modify]
    cases hj : s.lanes[j]? with
    | none => rfl
    | some l =>
      by_cases h : i = j
      · subst h; simp [State.inst, lane_of_getElem? hj]
      · simp [h]
  simp [State.withInst, h]

@[simp] theorem withInst_withInst (s : State) (i : Nat) (x y : Inst) :
    (s.withInst i x).withInst i y = s.withInst i y := by
  have h : ∀ z, s.withInst i z = s.mapInst i fun _ => z := fun _ => rfl
  rw [h, h, show (s.mapInst i fun _ => x).withInst i y = (s.mapInst i fun _ => x).mapInst i fun _ => y from rfl,
    mapInst_mapInst]
  rfl

theorem withInst_inst_self (s : State) (i : Nat) (x : Inst) (h : i < s.count) : (s.withInst i x).inst i = x :=
  mapInst_inst_self s i (fun _ => x) h

theorem withInst_inst_ne (s : State) {i j : Nat} (x : Inst) (h : i ≠ j) : (s.withInst i x).inst j = s.inst j :=
  mapInst_inst_ne s (fun _ => x) h

@[simp] theorem withInst_mapInst (s : State) (i : Nat) (x : Inst) (f : Inst → Inst) :
    (s.withInst i x).mapInst i f = s.withInst i (f x) := by
  rw [show s.withInst i x = s.mapInst i fun _ => x from rfl, mapInst_mapInst]
  rfl

@[simp] theorem withInst_count (s : State) (i : Nat) (x : Inst) : (s.withInst i x).count = s.count :=
  mapInst_count s i fun _ => x

@[simp] theorem withInst_chan (s : State) (i c : Nat) (x : Inst) : (s.withInst i x).chan c = s.chan c :=
  mapInst_chan s i c fun _ => x

/-- A pull, then a change of registers that depends on their value. -/
theorem pull_mapInst (s : State) (i c : Nat) (f : Inst → Inst) :
    (pullBit i c s).2.mapInst i f = (pullBit i c s).2.withInst i (f (s.inst i)) := by
  rw [mapInst_eq_withInst, pullBit_inst]

theorem pull_withInst_self (s : State) (i c : Nat) :
    (pullBit i c s).2.withInst i (s.inst i) = (pullBit i c s).2 := by
  have h := withInst_self (pullBit i c s).2 i
  rwa [pullBit_inst] at h

/-! ### The step is its effect -/

theorem cnfOper_eq (i : Nat) (s : State) (h : i < s.count) :
    cnfOper i s = (confirmEffect s.cfg (s.nextSample i) (s.inst i)).apply i i s := by
  have hc : i < (pullBit i i s).2.count := by simpa using h
  simp only [cnfOper, pullBit_bit, filterShift, filterClass, State.acc, pullBit_inst, State.setAcc, State.setXr,
    State.setPh, timerExpired, State.timer, State.tdb, pull_mapInst, withInst_mapInst, withInst_inst_self _ _ _ hc,
    withInst_cfg, pullBit_cfg, confirmEffect]
  cases hq : qualify (shiftIn (s.inst i).acc (s.nextSample i)) <;>
    by_cases he : expired (s.inst i).tdb s.cfg.debounceTicks <;>
    simp [he, Effect.apply, State.pulled, State.raised]

theorem prsOper_eq (i : Nat) (s : State) :
    prsOper i s = (actionEffect s.cfg .pressed .oper i 0 (s.nextSample i) (s.inst i)).apply i i s := by
  simp only [prsOper, pullBit_bit, timerExpired, State.timer, State.tstk, pullBit_inst, State.setXr, State.setPh,
    pull_mapInst, pullBit_cfg, actionEffect]
  cases s.nextSample i <;> by_cases he : expired (s.inst i).tstk s.cfg.stuckTicks <;>
    simp [he, Effect.apply, State.pulled, State.raised, pull_withInst_self]

/-- A phase action is its effect, applied. -/
theorem phaseAction_eq (f : Func) (p : Phase) (i : Nat) (evid : Byte) (s : State) (h : i < s.count) :
    phaseAction f p i evid s =
      (actionEffect s.cfg f p i evid (s.nextSample (sampleChannel s.cfg f i)) (s.inst i)).apply i
        (sampleChannel s.cfg f i) s := by
  cases f <;> cases p <;>
    first
    | exact cnfOper_eq i s h
    | exact prsOper_eq i s
    | (simp only [phaseAction, relOper, stkOper, pullBit_bit, State.setPh, pull_mapInst, actionEffect, Effect.apply,
        State.pulled, State.raised, sampleChannel, stuckChannel]
       cases s.cfg.stuckCh0 <;> simp <;> split <;> simp_all [pull_withInst_self]
       done)
    | (simp only [phaseAction, startEntry, startOper, startExit, relEntry, relExit, cnfEntry, cnfExit, cnfExitId,
        prsEntry, prsExit, stkEntry, stkExit, timerArm, filterSeed, State.setTimer, State.setAcc, State.setXr,
        State.setPh, mapInst_mapInst]
       simp only [mapInst_eq_withInst]
       rfl)

/-- STEP is its effect, applied. -/
theorem stepInst_eq (st : StateId) (i : Nat) (ev : Bool) (evid : Byte) (rv : Bool) (s : State) (h : i < s.count) :
    stepInst st i ev evid rv s =
      (stepEffect s.cfg st i ev evid rv (s.nextSample (stepChannel s.cfg st i)) (s.inst i)).apply i
        (stepChannel s.cfg st i) s := by
  unfold stepInst stepEffect stepChannel
  cases funcOf st with
  | none => simp [Effect.apply, State.pulled, State.raised, withInst_self]
  | some f =>
    by_cases hm : malformedCall ev rv = true
    · simp [hm, Effect.apply, State.pulled, State.raised, withInst_self]
    · simp only [hm]
      exact phaseAction_eq f _ i evid s h

end Sys2Proof.Machine
end

