-- ==== Sys2Proof/Laws/Calls.lean ====
section
/-! SUPPORT. What the row search, one DISPATCH and one turn of the driver's loop can do, each said once. -/

namespace Sys2Proof.Machine

open Sys2Proof

/-! ### The row search -/

/-- The row a search takes: the first of the list that matches. -/
def findRow (s : State) : List Word → ExitOut → Option Row
  | [], _ => none
  | w :: ws, x =>
    if rowMatches (Row.ofWord w) x.s x.evoId x.evoData x.rsn s then some (Row.ofWord w) else findRow s ws x

/-- The search runs the action of the row it takes, or records error class (b). -/
theorem searchRows_eq (ws : List Word) (x : ExitOut) (s : State) :
    searchRows ws x s =
      match findRow s ws x with
      | some w => (rowTarget w, runAction w.act x s)
      | none => (.noState, s.raise (some x.i) .unmatched) := by
  induction ws with
  | nil => rfl
  | cons w ws ih =>
    by_cases h : rowMatches (Row.ofWord w) x.s x.evoId x.evoData x.rsn s = true <;>
      simp [searchRows, tryRow, findRow, h, ih]

/-- The match reads the build and `TICKID` only. -/
theorem rowMatches_congr {s t : State} (hc : s.cfg = t.cfg) (ht : s.tickid = t.tickid) (w : Row) (st : StateId)
    (evoId evoData rsn : Byte) : rowMatches w st evoId evoData rsn s = rowMatches w st evoId evoData rsn t := by
  have h1 : ∀ e, evOf s e = evOf t e := by intro e; cases e <;> simp [evOf, hc, ht]
  have h2 : rsnOf s w = rsnOf t w := by simp [rsnOf, ht]
  simp [rowMatches, h1, h2]

theorem findRow_congr {s t : State} (hc : s.cfg = t.cfg) (ht : s.tickid = t.tickid) (ws : List Word) (x : ExitOut) :
    findRow s ws x = findRow t ws x := by
  induction ws with
  | nil => rfl
  | cons w ws ih => simp [findRow, rowMatches_congr hc ht, ih]

/-- A row that a search takes is of the list and matches. -/
theorem findRow_some {s : State} {ws : List Word} {x : ExitOut} {r : Row} (h : findRow s ws x = some r) :
    ∃ w ∈ ws, r = Row.ofWord w ∧ rowMatches r x.s x.evoId x.evoData x.rsn s = true := by
  induction ws with
  | nil => simp [findRow] at h
  | cons w ws ih =>
    simp only [findRow] at h
    split at h
    · next hm => exact ⟨w, by simp, by simpa using h.symm, by simpa [← Option.some.inj h] using hm⟩
    · obtain ⟨v, hv, hr⟩ := ih h
      exact ⟨v, by simp [hv], hr⟩

/-- All ACT_NOTIFY can do: nothing, a post, or a post and the record of its failure. -/
theorem actNotify_cases (i : Nat) (evoId evoData rsn : Byte) (s : State) :
    (outwardId evoId rsn s = evNone ∧ actNotify i evoId evoData rsn s = s) ∨
    (outwardId evoId rsn s ≠ evNone ∧ s.nextAnswer = true ∧
      actNotify i evoId evoData rsn s = (postEvent i s.qh (outwardId evoId rsn s) evoData s).2) ∨
    (outwardId evoId rsn s ≠ evNone ∧ s.nextAnswer = false ∧
      actNotify i evoId evoData rsn s =
        (postEvent i s.qh (outwardId evoId rsn s) evoData s).2.raise (some i) .postFail) := by
  unfold actNotify
  split
  · next h => exact .inl ⟨h, rfl⟩
  · next h =>
    right
    dsimp only
    split
    · next ha => exact .inl ⟨h, ha, rfl⟩
    · next ha => exact .inr ⟨h, by simpa using ha, rfl⟩

/-! ### Frames -/

/-- `t` differs from `s` at most in the queue and the history: what a row's action and an error record may change. -/
def OnlyOutside (s t : State) : Prop :=
  t = { s with queue := t.queue, history := t.history }

theorem OnlyOutside.refl (s : State) : OnlyOutside s s := rfl

theorem raise_onlyOutside (s : State) (i : Option Nat) (e : ErrorClass) : OnlyOutside s (s.raise i e) := rfl

theorem raised_onlyOutside (s : State) (i : Nat) (e : Option ErrorClass) : OnlyOutside s (s.raised i e) := by
  cases e <;> rfl

theorem OnlyOutside.trans {s t u : State} (h : OnlyOutside s t) (k : OnlyOutside t u) : OnlyOutside s u := by
  unfold OnlyOutside at *
  rw [k, h]

theorem OnlyOutside.lanes {s t : State} (h : OnlyOutside s t) : t.lanes = s.lanes := by rw [h]
theorem OnlyOutside.cfg {s t : State} (h : OnlyOutside s t) : t.cfg = s.cfg := by rw [h]
theorem OnlyOutside.tickid {s t : State} (h : OnlyOutside s t) : t.tickid = s.tickid := by rw [h]
theorem OnlyOutside.tickNo {s t : State} (h : OnlyOutside s t) : t.tickNo = s.tickNo := by rw [h]
theorem OnlyOutside.drvEn {s t : State} (h : OnlyOutside s t) : t.drvEn = s.drvEn := by rw [h]
theorem OnlyOutside.qh {s t : State} (h : OnlyOutside s t) : t.qh = s.qh := by rw [h]
theorem OnlyOutside.port {s t : State} (h : OnlyOutside s t) : t.port = s.port := by rw [h]
theorem OnlyOutside.count {s t : State} (h : OnlyOutside s t) : t.count = s.count := by rw [h]; rfl
theorem OnlyOutside.inst {s t : State} (h : OnlyOutside s t) (j : Nat) : t.inst j = s.inst j := by rw [h]; rfl
theorem OnlyOutside.chan {s t : State} (h : OnlyOutside s t) (c : Nat) : t.chan c = s.chan c := by rw [h]; rfl

/-- A transition action touches the queue and the history only. -/
theorem runAction_onlyOutside (a : Act) (x : ExitOut) (s : State) : OnlyOutside s (runAction a x s) := by
  cases a
  · exact .refl s
  · rcases actNotify_cases x.i x.evoId x.evoData x.rsn s with ⟨-, h⟩ | ⟨-, -, h⟩ | ⟨-, -, h⟩ <;>
      simp only [runAction, h] <;> rfl

theorem searchRows_onlyOutside (ws : List Word) (x : ExitOut) (s : State) : OnlyOutside s (searchRows ws x s).2 := by
  rw [searchRows_eq]
  split
  · exact runAction_onlyOutside ..
  · exact raise_onlyOutside ..

/-! ### One DISPATCH -/

/-- What a step leaves, but for an error record. -/
def State.stepped (s : State) (i c : Nat) (e : Effect) : State := (s.pulled e.pulls i c).withInst i e.inst

/-- The next state of an instance whose step gave `r`. -/
def nextState (s : State) (i : Nat) (st : StateId) (r : StepResult) : StateId :=
  match r with
  | .notDone => st
  | .done evoId evoData rsn =>
    match findRow s s.cfg.table ⟨i, st, evoId, evoData, rsn⟩ with
    | some w => rowTarget w
    | none => .noState

@[simp] theorem pulled_cfg (s : State) (p : Bool) (i c : Nat) : (s.pulled p i c).cfg = s.cfg := by
  cases p <;> rfl
@[simp] theorem pulled_tickid (s : State) (p : Bool) (i c : Nat) : (s.pulled p i c).tickid = s.tickid := by
  cases p <;> rfl
@[simp] theorem pulled_tickNo (s : State) (p : Bool) (i c : Nat) : (s.pulled p i c).tickNo = s.tickNo := by
  cases p <;> rfl
@[simp] theorem pulled_drvEn (s : State) (p : Bool) (i c : Nat) : (s.pulled p i c).drvEn = s.drvEn := by
  cases p <;> rfl
@[simp] theorem pulled_qh (s : State) (p : Bool) (i c : Nat) : (s.pulled p i c).qh = s.qh := by cases p <;> rfl
@[simp] theorem pulled_port (s : State) (p : Bool) (i c : Nat) : (s.pulled p i c).port = s.port := by cases p <;> rfl
@[simp] theorem pulled_res (s : State) (p : Bool) (i c : Nat) : (s.pulled p i c).res = s.res := by cases p <;> rfl
@[simp] theorem pulled_queue (s : State) (p : Bool) (i c : Nat) : (s.pulled p i c).queue = s.queue := by
  cases p <;> rfl
@[simp] theorem pulled_count (s : State) (p : Bool) (i c : Nat) : (s.pulled p i c).count = s.count := by
  cases p <;> simp [State.pulled]
@[simp] theorem pulled_inst (s : State) (p : Bool) (i c j : Nat) : (s.pulled p i c).inst j = s.inst j := by
  cases p <;> simp [State.pulled]

@[simp] theorem stepped_cfg (s : State) (i c : Nat) (e : Effect) : (s.stepped i c e).cfg = s.cfg := by
  simp [State.stepped]
@[simp] theorem stepped_tickid (s : State) (i c : Nat) (e : Effect) : (s.stepped i c e).tickid = s.tickid := by
  simp [State.stepped]
@[simp] theorem stepped_tickNo (s : State) (i c : Nat) (e : Effect) : (s.stepped i c e).tickNo = s.tickNo := by
  simp [State.stepped]
@[simp] theorem stepped_drvEn (s : State) (i c : Nat) (e : Effect) : (s.stepped i c e).drvEn = s.drvEn := by
  simp [State.stepped]
@[simp] theorem stepped_qh (s : State) (i c : Nat) (e : Effect) : (s.stepped i c e).qh = s.qh := by
  simp [State.stepped]
@[simp] theorem stepped_port (s : State) (i c : Nat) (e : Effect) : (s.stepped i c e).port = s.port := by
  simp [State.stepped]
@[simp] theorem stepped_count (s : State) (i c : Nat) (e : Effect) : (s.stepped i c e).count = s.count := by
  simp [State.stepped]

theorem stepped_inst_self (s : State) (i c : Nat) (e : Effect) (h : i < s.count) :
    (s.stepped i c e).inst i = e.inst := by
  simp [State.stepped, withInst_inst_self, h]

theorem stepped_inst_ne (s : State) {i j : Nat} (c : Nat) (e : Effect) (h : i ≠ j) :
    (s.stepped i c e).inst j = s.inst j := by
  simp [State.stepped, withInst_inst_ne _ _ h]

/-- DISPATCH with the sentinel or code 7 does nothing. -/
theorem dispatchInst_sentinel {st : StateId} (h : isSentinel st = true) (i : Nat) (ev : Bool) (evid : Byte) (rv : Bool)
    (s : State) : dispatchInst i st ev evid rv s = (.noState, s) := by
  simp [dispatchInst, h]

/-- DISPATCH with one of the six states: the step's effect, an error or an action outside the registers, and the next
state. -/
theorem dispatchInst_spec {st : StateId} (h : isSentinel st = false) {i : Nat} {s : State} (hi : i < s.count)
    (ev : Bool) (evid : Byte) (rv : Bool) (e : Effect)
    (he : e = stepEffect s.cfg st i ev evid rv (s.nextSample (stepChannel s.cfg st i)) (s.inst i)) :
    (dispatchInst i st ev evid rv s).1 = nextState s i st e.res ∧
      OnlyOutside (s.stepped i (stepChannel s.cfg st i) e) (dispatchInst i st ev evid rv s).2 := by
  simp only [dispatchInst, h, stepInst_eq st i ev evid rv s hi, ← he]
  simp only [afterStep, Effect.apply, nextState, State.stepped]
  have hout := raised_onlyOutside ((s.pulled e.pulls i (stepChannel s.cfg st i)).withInst i e.inst) i e.err
  cases e.res with
  | notDone => simpa using hout
  | done id data rsn =>
    have hc : (((s.pulled e.pulls i (stepChannel s.cfg st i)).withInst i e.inst).raised i e.err).cfg = s.cfg := by
      rw [hout.cfg]; simp
    have ht : (((s.pulled e.pulls i (stepChannel s.cfg st i)).withInst i e.inst).raised i e.err).tickid = s.tickid := by
      rw [hout.tickid]; simp
    refine ⟨?_, hout.trans (searchRows_onlyOutside _ _ _)⟩
    simp only [Bool.false_eq_true, if_false, searchRows_eq, findRow_congr hc ht, hc]
    split <;> rfl

/-! ### One turn of the driver's loop -/

/-- A turn of the driver's loop on an instance at the sentinel or at code 7 stores the sentinel and does nothing
else. -/
theorem driveOne_sentinel {i : Nat} {f : Bool} {s : State} (h : isSentinel (s.as i) = true) (ev rv : Bool)
    (evid : Byte) :
    driveOne ev rv evid i (f, s) = (f || decide (s.cfg.failPolicy = .globalHalt), s.setAs i .noState) := by
  simp [driveOne, dispatchInst_sentinel h]

/-- A turn of the driver's loop on an instance that takes steps. -/
theorem driveOne_spec {i : Nat} {f : Bool} {s : State} (h : isSentinel (s.as i) = false) (hi : i < s.count)
    (ev rv : Bool) (evid : Byte) (e : Effect) (n : StateId)
    (he : e = stepEffect s.cfg (s.as i) i ev evid rv (s.nextSample (stepChannel s.cfg (s.as i) i)) (s.inst i))
    (hn : n = nextState s i (s.as i) e.res) :
    (driveOne ev rv evid i (f, s)).1 = (f || (decide (n = .noState) && decide (s.cfg.failPolicy = .globalHalt))) ∧
      OnlyOutside (s.stepped i (stepChannel s.cfg (s.as i) i) { e with inst := { e.inst with as := n } })
        (driveOne ev rv evid i (f, s)).2 := by
  obtain ⟨h1, h2⟩ := dispatchInst_spec h hi ev evid rv e he
  rw [← hn] at h1
  simp only [driveOne, h1, true_and]
  have h3 : ((s.stepped i (stepChannel s.cfg (s.as i) i) e).setAs i n) =
      s.stepped i (stepChannel s.cfg (s.as i) i) { e with inst := { e.inst with as := n } } := by
    simp [State.stepped, State.setAs]
  rw [← h3, h2]
  rfl

/-- The registers of instance `i` after its turn, and the fail bit: the whole of one turn. At the sentinel or at code 7
nothing is done but storing the sentinel. -/
theorem driveOne_inst {i : Nat} {f : Bool} {s : State} (hi : i < s.count) (ev rv : Bool) (evid : Byte) :
    ((driveOne ev rv evid i (f, s)).1 = true ↔
        f = true ∨ ((driveOne ev rv evid i (f, s)).2.as i = .noState ∧ s.cfg.failPolicy = .globalHalt)) ∧
      (∀ j, i ≠ j → (driveOne ev rv evid i (f, s)).2.inst j = s.inst j) ∧
      (driveOne ev rv evid i (f, s)).2.cfg = s.cfg ∧ (driveOne ev rv evid i (f, s)).2.tickid = s.tickid ∧
      (driveOne ev rv evid i (f, s)).2.drvEn = s.drvEn ∧ (driveOne ev rv evid i (f, s)).2.qh = s.qh ∧
      (driveOne ev rv evid i (f, s)).2.tickNo = s.tickNo ∧ (driveOne ev rv evid i (f, s)).2.port = s.port ∧
      (driveOne ev rv evid i (f, s)).2.count = s.count := by
  by_cases h : isSentinel (s.as i) = true
  · rw [driveOne_sentinel h]
    refine ⟨?_, ?_⟩
    · simp [State.as, State.setAs, mapInst_inst_self _ _ _ hi]
    · refine ⟨fun j hj => mapInst_inst_ne _ _ hj, ?_⟩
      simp [State.setAs]
  · have h := (Bool.not_eq_true _).mp h
    obtain ⟨h1, h2⟩ := driveOne_spec (f := f) h hi ev rv evid _ _ rfl rfl
    refine ⟨?_, ?_, ?_⟩
    · rw [h1, State.as.eq_1 (driveOne ev rv evid i (f, s)).2, h2.inst i, stepped_inst_self _ _ _ _ hi]
      simp
    · intro j hj
      rw [h2.inst, stepped_inst_ne _ _ _ hj]
    · simp [h2.cfg, h2.tickid, h2.drvEn, h2.qh, h2.tickNo, h2.port, h2.count]

/-! ### The whole loop -/

/-- What every turn keeps, the loop keeps. -/
theorem driveAll_induction {P : State → Prop} {ev rv : Bool} {evid : Byte} {n : Nat}
    (h : ∀ i f s, i < s.count → s.count = n → P s → P (driveOne ev rv evid i (f, s)).2) :
    ∀ k f s, k ≤ n → s.count = n → P s → P (driveAll ev rv evid k (f, s)).2 := by
  intro k
  induction k with
  | zero => intro f s _ _ hp; exact hp
  | succ k ih =>
    intro f s hk hn hp
    have hks : k < s.count := by omega
    have hc := (driveOne_inst (f := f) hks ev rv evid).2.2.2.2.2.2.2.2
    exact ih _ _ (by omega) (hc.trans hn) (h k f s hks hn hp)

/-- The loop over instances `k-1` down to 0: it leaves every other instance and the global registers alone, and its fail
bit says whether under GLOBAL one of them ends at the sentinel. -/
theorem driveAll_frame (ev rv : Bool) (evid : Byte) :
    ∀ (k : Nat) (f : Bool) (s : State), k ≤ s.count →
      ((driveAll ev rv evid k (f, s)).1 = true ↔
        f = true ∨ (s.cfg.failPolicy = .globalHalt ∧ ∃ i < k, (driveAll ev rv evid k (f, s)).2.as i = .noState)) ∧
      (∀ j, k ≤ j → (driveAll ev rv evid k (f, s)).2.inst j = s.inst j) ∧
      (driveAll ev rv evid k (f, s)).2.cfg = s.cfg ∧ (driveAll ev rv evid k (f, s)).2.tickid = s.tickid ∧
      (driveAll ev rv evid k (f, s)).2.drvEn = s.drvEn ∧ (driveAll ev rv evid k (f, s)).2.qh = s.qh ∧
      (driveAll ev rv evid k (f, s)).2.tickNo = s.tickNo ∧ (driveAll ev rv evid k (f, s)).2.port = s.port ∧
      (driveAll ev rv evid k (f, s)).2.count = s.count := by
  intro k
  induction k with
  | zero => intro f s _; simp [driveAll]
  | succ k ih =>
    intro f s hk
    obtain ⟨a1, a2, a3, a4, a5, a6, a7, a8, a9⟩ := driveOne_inst (f := f) (show k < s.count by omega) ev rv evid
    simp only [driveAll]
    generalize hr : driveOne ev rv evid k (f, s) = r at *
    obtain ⟨g, t⟩ := r
    simp only at a1 a2 a3 a4 a5 a6 a7 a8 a9
    obtain ⟨b1, b2, b3, b4, b5, b6, b7, b8, b9⟩ := ih g t (by omega)
    refine ⟨?_, ?_, by rw [b3, a3], by rw [b4, a4], by rw [b5, a5], by rw [b6, a6], by rw [b7, a7], by rw [b8, a8],
      by rw [b9, a9]⟩
    · rw [b1, a1, a3]
      have hk' : (driveAll ev rv evid k (g, t)).2.as k = t.as k := by simp only [State.as, b2 k (Nat.le_refl k)]
      rw [or_assoc, ← hk']
      constructor
      · rintro (h | ⟨h1, h2⟩ | ⟨h1, i, hi, h2⟩)
        · exact .inl h
        · exact .inr ⟨h2, k, by omega, h1⟩
        · exact .inr ⟨h1, i, by omega, h2⟩
      · rintro (h | ⟨h1, i, hi, h2⟩)
        · exact .inl h
        · by_cases hik : i = k
          · subst hik; exact .inr (.inl ⟨h2, h1⟩)
          · exact .inr (.inr ⟨h1, i, by omega, h2⟩)
    · intro j hj
      rw [b2 j (by omega), a2 j (by omega)]

end Sys2Proof.Machine
end

