-- ==== Sys2Proof/Laws/PerInstr.lean ====
section
/-! SUPPORT. One statement per constructor of `Instr`: its word has the bits spec/opcode_table.json fixes for its
mnemonic. -/

namespace Sys2Proof.Laws.EncodingFitsTable

open Sys2Proof

/-- A row of the opcode table, by format: the fixed bits and their values. -/
inductive Pattern where
  | hc (mask value : Word)
  | cw (mask value : BitVec 5)
  | act (value : BitVec 1)
  | row (mask value : Word)

/-- Does a word with its format fit the pattern? -/
def Pattern.Fits : Pattern → Code → Prop
  | .hc m v, .hc w => w &&& m = v
  | .cw m v, .cw w => w &&& m = v
  | .act v, .act w => w = v
  | .row m v, .row w => w &&& m = v
  | _, _ => False

/-- The rows of the opcode table with the mnemonic of an operation, for its operands; none for the format INTERNAL. -/
def patternOf : Instr → Option Pattern
  | .reset _ => some (.hc 0xC0000000 0x00000000)
  | .setup _ _ _ => some (.hc 0xC0000000 0x40000000)
  | .tick _ _ _ _ _ _ => some (.hc 0xC0000000 0x80000000)
  | .hcReserved _ => some (.hc 0xC0000000 0xC0000000)
  | .noStep r _ _ _ => some (.cw 0x1C (if r then 0x1C else 0x00))
  | .startEntry c _ _ => some (.cw 0x1F (match c with | .uninit => 0x04 | .finished => 0x07))
  | .startOper _ _ => some (.cw 0x1F 0x05)
  | .startExit _ _ => some (.cw 0x1F 0x06)
  | .relEntry c _ _ => some (.cw 0x1F (match c with | .uninit => 0x08 | .finished => 0x0B))
  | .relOper _ _ => some (.cw 0x1F 0x09)
  | .relExit _ _ => some (.cw 0x1F 0x0A)
  | .cnfEntry d c _ _ =>
      some (.cw 0x1F (match d, c with
        | .press, .uninit => 0x0C
        | .press, .finished => 0x0F
        | .release, .uninit => 0x14
        | .release, .finished => 0x17))
  | .cnfOper d _ _ => some (.cw 0x1F (match d with | .press => 0x0D | .release => 0x15))
  | .cnfExit d _ _ => some (.cw 0x1F (match d with | .press => 0x0E | .release => 0x16))
  | .prsEntry c _ _ => some (.cw 0x1F (match c with | .uninit => 0x10 | .finished => 0x13))
  | .prsOper _ _ => some (.cw 0x1F 0x11)
  | .prsExit _ _ => some (.cw 0x1F 0x12)
  | .stkEntry c _ _ => some (.cw 0x1F (match c with | .uninit => 0x18 | .finished => 0x1B))
  | .stkOper _ _ => some (.cw 0x1F 0x19)
  | .stkExit _ _ => some (.cw 0x1F 0x1A)
  | .actNop _ _ _ _ => some (.act 0)
  | .actNotify _ _ _ _ => some (.act 1)
  | .row _ _ => some (.row 0 0)
  | .row0 _ => some (.row 0xFFFFFFFF 0x23FE0080)
  | .row1 _ => some (.row 0xFFFFFFFF 0x43FC02C0)
  | .row2 _ => some (.row 0xFFFFFFFF 0x67FC0520)
  | .row3 _ => some (.row 0xFFFFFFFF 0x6BFC0480)
  | .row4 _ => some (.row 0xFFFFFFFF 0x63FC0680)
  | .row5 _ => some (.row 0xFFFFFFFF 0x83FC0340)
  | .row6 _ => some (.row 0xFFFFFFFF 0x83FC07A0)
  | .row7 _ => some (.row 0xFFFFFFFF 0xABFC04A0)
  | .row8 _ => some (.row 0xFFFFFFFF 0xA7FC0500)
  | .row9 _ => some (.row 0xFFFFFFFF 0xA3FC0680)
  | .row10 _ => some (.row 0xFFFFFFFF 0xC3FC08A0)
  | .step _ _ _ _ _ => none
  | .filterSeed _ => none
  | .filterShift _ _ => none
  | .filterClass _ => none
  | .timerArm _ _ => none
  | .timerAdvance => none
  | .timerExpired _ _ _ => none
  | .dispatch _ _ _ _ _ => none
  | .matchRow _ _ _ _ _ => none
  | .outward _ _ => none
  | .pull _ _ => none
  | .post _ _ _ _ => none

/-- An operation has a word just where the table gives it a pattern, and the word fits it. -/
def Statement (i : Instr) : Prop :=
  match encode i, patternOf i with
  | some c, some p => p.Fits c
  | none, none => True
  | _, _ => False

/-- The top two bits of a command word are its op code. -/
theorem hcWord_op (op : BitVec 2) (low : BitVec 30) :
    hcWord op low &&& ((3 : BitVec 2) ++ (0 : BitVec 30) : Word) = op ++ (0 : BitVec 30) := by
  have h : ∀ v : BitVec 2, v &&& 3 = v := by decide
  unfold hcWord
  rw [BitVec.and_append, h]
  exact congrArg (op ++ ·) BitVec.and_zero

theorem hcWord_fits (op : BitVec 2) (low : BitVec 30) : Pattern.Fits (.hc 0xC0000000 (op ++ (0 : BitVec 30)))
    (.hc (hcWord op low)) := hcWord_op op low

theorem reset : ∀ ig, Statement (.reset ig) := by
  intro ig
  exact hcWord_fits 0 _

theorem setup : ∀ ig tickid qh, Statement (.setup ig tickid qh) := by
  intro ig tickid qh
  exact hcWord_fits 1 _

theorem tick : ∀ ev rv ig evid evdata aux, Statement (.tick ev rv ig evid evdata aux) := by
  intro ev rv ig evid evdata aux
  exact hcWord_fits 2 _

theorem hcReserved : ∀ ig, Statement (.hcReserved ig) := by
  intro ig
  exact hcWord_fits 3 _

theorem noStep : ∀ r p i evid, Statement (.noStep r p i evid) := by
  intro r p i evid
  cases r <;> cases p <;> rfl

theorem startEntry : ∀ c i evid, Statement (.startEntry c i evid) := by
  intro c i evid
  cases c <;> rfl

theorem startOper : ∀ i evid, Statement (.startOper i evid) := by
  intro i evid
  rfl

theorem startExit : ∀ i evid, Statement (.startExit i evid) := by
  intro i evid
  rfl

theorem relEntry : ∀ c i evid, Statement (.relEntry c i evid) := by
  intro c i evid
  cases c <;> rfl

theorem relOper : ∀ i evid, Statement (.relOper i evid) := by
  intro i evid
  rfl

theorem relExit : ∀ i evid, Statement (.relExit i evid) := by
  intro i evid
  rfl

theorem cnfEntry : ∀ d c i evid, Statement (.cnfEntry d c i evid) := by
  intro d c i evid
  cases d <;> cases c <;> rfl

theorem cnfOper : ∀ d i evid, Statement (.cnfOper d i evid) := by
  intro d i evid
  cases d <;> rfl

theorem cnfExit : ∀ d i evid, Statement (.cnfExit d i evid) := by
  intro d i evid
  cases d <;> rfl

theorem prsEntry : ∀ c i evid, Statement (.prsEntry c i evid) := by
  intro c i evid
  cases c <;> rfl

theorem prsOper : ∀ i evid, Statement (.prsOper i evid) := by
  intro i evid
  rfl

theorem prsExit : ∀ i evid, Statement (.prsExit i evid) := by
  intro i evid
  rfl

theorem stkEntry : ∀ c i evid, Statement (.stkEntry c i evid) := by
  intro c i evid
  cases c <;> rfl

theorem stkOper : ∀ i evid, Statement (.stkOper i evid) := by
  intro i evid
  rfl

theorem stkExit : ∀ i evid, Statement (.stkExit i evid) := by
  intro i evid
  rfl

theorem actNop : ∀ i a b r, Statement (.actNop i a b r) := by
  intro i a b r
  rfl

theorem actNotify : ∀ i a b r, Statement (.actNotify i a b r) := by
  intro i a b r
  rfl

theorem row : ∀ w x, Statement (.row w x) := by
  intro w x
  exact BitVec.and_zero

theorem row0 : ∀ x, Statement (.row0 x) := by
  intro x
  rfl

theorem row1 : ∀ x, Statement (.row1 x) := by
  intro x
  rfl

theorem row2 : ∀ x, Statement (.row2 x) := by
  intro x
  rfl

theorem row3 : ∀ x, Statement (.row3 x) := by
  intro x
  rfl

theorem row4 : ∀ x, Statement (.row4 x) := by
  intro x
  rfl

theorem row5 : ∀ x, Statement (.row5 x) := by
  intro x
  rfl

theorem row6 : ∀ x, Statement (.row6 x) := by
  intro x
  rfl

theorem row7 : ∀ x, Statement (.row7 x) := by
  intro x
  rfl

theorem row8 : ∀ x, Statement (.row8 x) := by
  intro x
  rfl

theorem row9 : ∀ x, Statement (.row9 x) := by
  intro x
  rfl

theorem row10 : ∀ x, Statement (.row10 x) := by
  intro x
  rfl

theorem step : ∀ s i ev evid rv, Statement (.step s i ev evid rv) := by
  intro s i ev evid rv
  trivial

theorem filterSeed : ∀ i, Statement (.filterSeed i) := by
  intro i
  trivial

theorem filterShift : ∀ i b, Statement (.filterShift i b) := by
  intro i b
  trivial

theorem filterClass : ∀ i, Statement (.filterClass i) := by
  intro i
  trivial

theorem timerArm : ∀ t i, Statement (.timerArm t i) := by
  intro t i
  trivial

theorem timerAdvance : Statement .timerAdvance := by
  trivial

theorem timerExpired : ∀ t i l, Statement (.timerExpired t i l) := by
  intro t i l
  trivial

theorem dispatch : ∀ i s ev evid rv, Statement (.dispatch i s ev evid rv) := by
  intro i s ev evid rv
  trivial

theorem matchRow : ∀ w s a b r, Statement (.matchRow w s a b r) := by
  intro w s a b r
  trivial

theorem outward : ∀ a r, Statement (.outward a r) := by
  intro a r
  trivial

theorem pull : ∀ i c, Statement (.pull i c) := by
  intro i c
  trivial

theorem post : ∀ i qh a b, Statement (.post i qh a b) := by
  intro i qh a b
  trivial

end Sys2Proof.Laws.EncodingFitsTable
end

