-- ==== Sys2Proof/Tests/Slice0.lean ====
section
/-! SUPPORT. The model's own tests: well-formedness refusals, decoded words written out from 30_encoding.md, one or two
steps per operation with the values of 95_test_vectors.md, and a witness for the hypotheses of every statement. -/

namespace Sys2Proof.Tests

open Sys2Proof Sys2Proof.Machine

/-! ### Well-formedness -/

theorem test_wf_refuses_index_of_step : (Instr.relOper 8 0).wf = false := by decide
theorem test_wf_refuses_index_of_nostep : (Instr.noStep true .exit 8 0).wf = false := by decide
theorem test_wf_refuses_index_of_entry : (Instr.cnfEntry .press .uninit 9 0).wf = false := by decide
theorem test_wf_refuses_index_of_action : (Instr.actNotify 8 0 0 0).wf = false := by decide
theorem test_wf_refuses_index_of_default_row : (Instr.row6 ⟨8, .pressed, 0, 0, 0⟩).wf = false := by decide
theorem test_wf_refuses_index_of_row : (Instr.row (Row.ofWord 0x400002C0) ⟨8, .pressed, 0, 0, 0⟩).wf = false := by decide
theorem test_wf_refuses_default_row_as_row : (Instr.row defaultRow6 ⟨0, .pressed, 0, 0, 0⟩).wf = false := by decide
theorem test_wf_refuses_index_of_dispatch : (Instr.dispatch 8 .start true 0 true).wf = false := by decide
theorem test_wf_refuses_index_of_timer : (Instr.timerArm .tdb 8).wf = false := by decide
theorem test_wf_refuses_index_of_filter : (Instr.filterShift 8 true).wf = false := by decide
theorem test_wf_refuses_channel : (Instr.pull 0 8).wf = false := by decide
theorem test_wf_refuses_requester : (Instr.post 8 0 0 0).wf = false := by decide
theorem test_wf_refuses_build_without_instance : { openBuild with n := 0 }.wf = false := by decide
theorem test_wf_refuses_nine_instances : { openBuild with n := 9 }.wf = false := by decide
theorem test_wf_refuses_equal_events : { openBuild with evStuck := 1 }.wf = false := by decide
theorem test_wf_refuses_event_none : { openBuild with evStuck := 0 }.wf = false := by decide
theorem test_wf_refuses_empty_table : { openBuild with table := [] }.wf = false := by decide
theorem test_wf_accepts : (Instr.row (Row.ofWord 0x400002C0) ⟨7, .released, 0x10, 7, 1⟩).wf = true := by decide

/-! ### Decoding: words written out field by field from R60 to R67; V37 to V39 -/

theorem test_decode_reset : decodeHC 0x00000000 = .reset 0 := by decide
theorem test_decode_reset_ignored : decodeHC 0x3FFFFFFF = .reset 0x3FFFFFFF := by decide
theorem test_decode_setup : decodeHC 0x401000A5 = .setup 0 0x10 0x00A5 := by decide
theorem test_decode_setup_ignored : decodeHC 0x7F00FFFF = .setup 0x3F 0x00 0xFFFF := by decide
theorem test_decode_tick : decodeHC 0xB0107E99 = .tick true true 0 0x10 0x7E 0x99 := by decide
theorem test_decode_tick_noev : decodeHC 0x90100000 = .tick false true 0 0x10 0 0 := by decide
theorem test_decode_tick_norsn : decodeHC 0xAF100000 = .tick true false 0xF 0x10 0 0 := by decide
theorem test_decode_reserved : decodeHC 0xC0000001 = .hcReserved 1 := by decide

/-- What decodes from each of the 32 control words (30_encoding.md R62, the map). -/
def controlMap (i : Nat) (e : Byte) : List Instr :=
  [.noStep false .uninit i e, .noStep false .oper i e, .noStep false .exit i e, .noStep false .finished i e,
   .startEntry .uninit i e, .startOper i e, .startExit i e, .startEntry .finished i e,
   .relEntry .uninit i e, .relOper i e, .relExit i e, .relEntry .finished i e,
   .cnfEntry .press .uninit i e, .cnfOper .press i e, .cnfExit .press i e, .cnfEntry .press .finished i e,
   .prsEntry .uninit i e, .prsOper i e, .prsExit i e, .prsEntry .finished i e,
   .cnfEntry .release .uninit i e, .cnfOper .release i e, .cnfExit .release i e, .cnfEntry .release .finished i e,
   .stkEntry .uninit i e, .stkOper i e, .stkExit i e, .stkEntry .finished i e,
   .noStep true .uninit i e, .noStep true .oper i e, .noStep true .exit i e, .noStep true .finished i e]

theorem test_decode_control_words :
    (List.range 32).map (fun w => decodeCW (BitVec.ofNat 5 w) 3 0x10) = controlMap 3 0x10 := by decide
theorem test_decode_actions :
    decodeAct 0 1 2 3 4 = .actNop 1 2 3 4 ∧ decodeAct 1 1 2 3 4 = .actNotify 1 2 3 4 := by decide
theorem test_decode_row : Row.ofWord 0x400002C0 = ⟨.released, .tick, 0x00, false, 1, .cnfPress, .nop, 0⟩ := by decide
theorem test_decode_row_reserved_fields :
    Row.ofWord 0xFC0001DF = ⟨.reserved7, .reserved7, 0x00, false, 0, .reserved7, .nop, 0x1F⟩ := by decide
theorem test_decode_generic_row :
    decodeRow 0x400002C0 ⟨0, .released, 0x10, 0, 1⟩ =
      .row ⟨.released, .tick, 0x00, false, 1, .cnfPress, .nop, 0⟩ ⟨0, .released, 0x10, 0, 1⟩ := by decide
theorem test_default_words :
    defaultTable = [defaultRow0, defaultRow1, defaultRow2, defaultRow3, defaultRow4, defaultRow5, defaultRow6,
      defaultRow7, defaultRow8, defaultRow9, defaultRow10].map Row.toWord := by decide
theorem test_decode_default_rows :
    let x : ExitOut := ⟨0, .noState, 0, 0, 0⟩
    defaultTable.map (fun w => decodeRow w x) =
      [.row0 x, .row1 x, .row2 x, .row3 x, .row4 x, .row5 x, .row6 x, .row7 x, .row8 x, .row9 x, .row10 x] := by
  decide

/-! The words of spec/opcode_table.json in their whole bytes. -/

theorem test_table_word_command : decodeTableWord 32 0xB0100000 = some (.tick true true 0 0x10 0 0) := by decide
theorem test_table_word_control : decodeTableWord 8 0x0D = some (.cnfOper .press 0 0) := by decide
theorem test_table_word_action : decodeTableWord 8 1 = some (.actNotify 0 0 0 0) := by decide
theorem test_table_word_row : decodeTableWord 32 0x83FC07A0 = some (.row6 ⟨0, .noState, 0, 0, 0⟩) := by decide
theorem test_table_word_other_width : decodeTableWord 16 0 = none := by decide

/-! ### A small machine: two instances, `DEBOUNCE_TICKS` = 10, `STUCK_TICKS` = 30, the default table -/

/-- The build of the tests. -/
def build : Config where
  n := 2
  debounceTicks := 10
  stuckTicks := 30
  stuckCh0 := true
  failPolicy := .globalHalt
  evPressed := 1
  evReleased := 2
  evStuck := 3
  evUnstuck := 4
  table := defaultTable

/-- Set up with `TICKID` 0x10 and `QH` 0x00A5, instance 0 with the registers `x`, channel 0 at level `b`. -/
def small (x : Inst) (b : Bool) : State where
  cfg := build
  lanes := [⟨x, ⟨[], b, 0⟩⟩, ⟨.reset, ⟨[], !b, 0⟩⟩]
  drvEn := true
  qh := 0x00A5
  tickid := 0x10
  queue := ⟨[], true, 0⟩
  history := []
  tickNo := 4
  port := []
  res := .nothing

/-- Registers at the control point `(st, p)`. -/
def atPoint (st : StateId) (p : Phase) : Inst :=
  match funcOf st with
  | some f => { Inst.reset with as := st, ph := Phases.reset.set f p }
  | none => { Inst.reset with as := st }

/-- What an outcome's next state shows. -/
def seen {α : Type} (o : Host.Outcome State Fault Refusal) (f : State → α) : Option α :=
  match o with
  | .next s => some (f s)
  | .fault _ => none
  | .refused _ => none

/-! ### Host commands -/

-- V40
theorem test_reset : seen (exec (.reset 0) (small { atPoint .pressed .oper with acc := 0x55, tdb := 9, xr := 3 } true))
    (fun s => (s.inst 0, s.drvEn, s.qh, s.tickid, s.tickNo)) = some (Inst.reset, false, 0, 0, 0) := by decide
-- V41
theorem test_setup : seen (exec (.setup 0 0x11 0x00A6) { small (atPoint .pressed .oper) true with drvEn := false })
    (fun s => (s.drvEn, s.qh, s.tickid, s.as 0)) = some (true, 0x00A6, 0x11, .pressed) := by decide
-- V42
theorem test_tick_not_accepted :
    seen (exec (.tick true true 0 0x10 0 0) { small (atPoint .released .oper) true with drvEn := false })
      (fun s => (s.tdb 0, s.tickNo, s.history)) = some (0, 4, []) := by decide
-- V43, V10: instance 1 first; both timers of both instances advance
theorem test_tick_order : seen (exec (.tick true true 0 0x10 0 0)
      { small (atPoint .released .oper) true with
        lanes := [⟨atPoint .released .oper, ⟨[], true, 0⟩⟩,
          ⟨{ atPoint .released .oper with tdb := 65535 }, ⟨[], true, 0⟩⟩] })
    (fun s => (s.history, s.tdb 0, s.tdb 1, s.tstk 1)) =
      some ([.pull 5 1 1 true, .pull 5 0 0 true], 1, 65535, 1) := by decide
-- V45
theorem test_reserved_command : seen (exec (.hcReserved 0) (small .reset true)) (fun s => (s.history, s.lanes)) =
    some ([.err 4 none .badCmd], (small .reset true).lanes) := by decide
-- V31, worked: instance 1 fails under GLOBAL and the block halts after instance 0 is stepped
theorem test_tick_halts : seen (exec (.tick true true 0 0x10 0 0)
      { small (atPoint .released .exit) true with
        cfg := { build with table := defaultTable.set 1 0x400002C0 }
        lanes := [⟨atPoint .released .exit, ⟨[], true, 0⟩⟩, ⟨atPoint .released .exit, ⟨[], true, 0⟩⟩] })
    (fun s => (s.as 1, s.as 0, s.drvEn, s.history)) =
      some (.noState, .cnfPress, false, [.err 5 (some 1) .unmatched, .halt 5]) := by decide

/-! ### Steps -/

-- V13, V13a
theorem test_startEntry : seen (exec (.startEntry .uninit 0 0x10) (small .reset true))
    (fun s => (s.xr 0, s.cwOut 0)) = some (0x10, some 0x06) := by decide
theorem test_startEntry_finished :
    seen (exec (.startEntry .finished 0 0x00) (small { atPoint .start .finished with xr := 2 } true))
      (fun s => (s.xr 0, s.cwOut 0)) = some (0x00, some 0x06) := by decide
-- V14
theorem test_startOper : seen (exec (.startOper 0 0x10) (small { atPoint .start .oper with xr := 0x33 } true))
    (fun s => (s.xr 0, s.cwOut 0)) = some (0x33, some 0x06) := by decide
-- V15a
theorem test_startExit : seen (exec (.startExit 0 0x11) (small { atPoint .start .exit with xr := 0x10 } true))
    (fun s => (s.ph 0 .start, s.res)) = some (.finished, .step (.done 0x11 0 0x10)) := by decide
-- V16a
theorem test_relEntry : seen (exec (.relEntry .finished 0 0x10) (small (atPoint .released .finished) true))
    (fun s => (s.cwOut 0, s.history)) = some (some 0x09, []) := by decide
-- V17, V17a
theorem test_relOper_zero : seen (exec (.relOper 0 0x10) (small (atPoint .released .oper) false))
    (fun s => (s.inst 0, (s.chan 0).pulled)) = some (atPoint .released .oper, 1) := by decide
theorem test_relOper_one : seen (exec (.relOper 0 0x10) (small (atPoint .released .oper) true))
    (fun s => (s.cwOut 0, s.history)) = some (some 0x0A, [.pull 4 0 0 true]) := by decide
-- V18
theorem test_relExit : seen (exec (.relExit 0 0x10) (small { atPoint .released .exit with xr := 0x10 } true))
    (fun s => (s.ph 0 .released, s.xr 0, s.res)) = some (.finished, 0x10, .step (.done 0x10 0 1)) := by decide
-- V19a
theorem test_cnfEntry :
    seen (exec (.cnfEntry .release .finished 0 0x10)
        (small { atPoint .cnfRelease .finished with acc := 0xFF, tdb := 40 } true))
      (fun s => (s.acc 0, s.tdb 0, s.cwOut 0)) = some (0x01, 0, some 0x15) := by decide
-- V20a: the qualification wins; V20c: the timeout is recorded
theorem test_cnfOper_qualifies :
    seen (exec (.cnfOper .press 0 0x10) (small { atPoint .cnfPress .oper with acc := 0x7F, tdb := 10 } true))
      (fun s => (s.acc 0, s.xr 0, s.cwOut 0, s.history)) = some (0xFF, 2, some 0x0E, [.pull 4 0 0 true]) := by decide
theorem test_cnfOper_times_out :
    seen (exec (.cnfOper .press 0 0x10) (small { atPoint .cnfPress .oper with acc := 0x3F, tdb := 10 } true))
      (fun s => (s.acc 0, s.xr 0, s.cwOut 0, s.history)) =
        some (0x7F, 3, some 0x0E, [.pull 4 0 0 true, .err 4 (some 0) .timeout]) := by decide
-- V21c, V21f
theorem test_cnfExit_pressed :
    seen (exec (.cnfExit .release 0 0x10) (small { atPoint .cnfRelease .exit with acc := 0xFF, xr := 2 } true))
      (fun s => s.res) = some (.step (.done 1 0 2)) := by decide
theorem test_cnfExit_timeout :
    seen (exec (.cnfExit .press 0 0x10) (small { atPoint .cnfPress .exit with acc := 0xFF, xr := 3 } true))
      (fun s => s.res) = some (.step (.done 0x10 0 3)) := by decide
-- V22
theorem test_prsEntry : seen (exec (.prsEntry .uninit 0 0x10) (small { atPoint .pressed .uninit with tstk := 29 } true))
    (fun s => (s.tstk 0, s.cwOut 0)) = some (0, some 0x11) := by decide
-- V23a, V23b
theorem test_prsOper_times_out :
    seen (exec (.prsOper 0 0x10) (small { atPoint .pressed .oper with tstk := 30 } true))
      (fun s => (s.xr 0, s.cwOut 0)) = some (3, some 0x12) := by decide
theorem test_prsOper_zero_wins :
    seen (exec (.prsOper 0 0x10) (small { atPoint .pressed .oper with tstk := 30 } false))
      (fun s => (s.xr 0, s.cwOut 0)) = some (1, some 0x12) := by decide
-- V24a
theorem test_prsExit : seen (exec (.prsExit 0 0x10) (small { atPoint .pressed .exit with xr := 3 } true))
    (fun s => (s.ph 0 .pressed, s.res)) = some (.finished, .step (.done 0x10 0 3)) := by decide
-- V25
theorem test_stkEntry : seen (exec (.stkEntry .uninit 0 0x10) (small { atPoint .stuck .uninit with xr := 3 } true))
    (fun s => (s.xr 0, s.cwOut 0)) = some (0x10, some 0x19) := by decide
-- V26: instance 1 samples channel 0; V26a: its own
theorem test_stkOper_channel0 : seen (exec (.stkOper 1 0x10) (small .reset false))
    (fun s => (s.ph 1 .stuck, (s.chan 0).pulled, (s.chan 1).pulled)) = some (.exit, 1, 0) := by decide
theorem test_stkOper_own_channel :
    seen (exec (.stkOper 1 0x10) { small .reset false with cfg := { build with stuckCh0 := false } })
      (fun s => (s.ph 1 .stuck, (s.chan 0).pulled, (s.chan 1).pulled)) = some (.uninit, 0, 1) := by decide
-- V27
theorem test_stkExit : seen (exec (.stkExit 1 0x10) (small .reset true)) (fun s => (s.ph 1 .stuck, s.res)) =
    some (.finished, .step (.done 0x10 1 4)) := by decide
-- R145
theorem test_noStep : seen (exec (.noStep true .exit 0 0x10) (small .reset true)) (fun s => (s.lanes, s.res)) =
    some ((small .reset true).lanes, .state .noState) := by decide
-- V28, V28a
theorem test_step_malformed :
    seen (exec (.step .cnfPress 0 false 0x10 true) (small { atPoint .cnfPress .oper with acc := 7 } true))
      (fun s => (s.acc 0, s.res, s.history)) = some (7, .step .notDone, [.err 4 (some 0) .malformed]) := by decide
theorem test_step_runs : seen (exec (.step .cnfPress 0 true 0x10 true) (small { atPoint .cnfPress .oper with acc := 7 } true))
    (fun s => (s.acc 0, s.res)) = some (15, .step .notDone) := by decide

/-! ### Rows, actions and DISPATCH: V29, V30, V34, V36 -/

/-- Runs a row alone on the exit outputs of instance 0 in state `st`. -/
def tried (f : ExitOut → Instr) (st : StateId) (id rsn : Byte) : Option (Result × Nat) :=
  seen (exec (f ⟨0, st, id, 0, rsn⟩) (small .reset true)) fun s => (s.res, s.history.length)

theorem test_row0 : tried .row0 .start 0x10 0x10 = some (.row (some .released), 0) ∧
    tried .row0 .start 0x10 0x00 = some (.row none, 0) := by decide
theorem test_row1 : tried .row1 .released 0x10 1 = some (.row (some .cnfPress), 0) ∧
    tried .row1 .released 0x12 1 = some (.row none, 0) := by decide
theorem test_row2 : tried .row2 .cnfPress 1 2 = some (.row (some .pressed), 1) ∧
    tried .row2 .cnfRelease 1 2 = some (.row none, 0) := by decide
theorem test_row3 : tried .row3 .cnfPress 2 2 = some (.row (some .released), 0) ∧
    tried .row3 .cnfPress 1 2 = some (.row none, 0) := by decide
theorem test_row4 : tried .row4 .cnfPress 0x10 3 = some (.row (some .released), 0) ∧
    tried .row4 .cnfPress 0x10 2 = some (.row none, 0) := by decide
theorem test_row5 : tried .row5 .pressed 0x10 1 = some (.row (some .cnfRelease), 0) ∧
    tried .row5 .pressed 0x10 2 = some (.row none, 0) := by decide
theorem test_row6 : tried .row6 .pressed 0x10 3 = some (.row (some .stuck), 1) ∧
    tried .row6 .pressed 0x10 1 = some (.row none, 0) := by decide
theorem test_row7 : tried .row7 .cnfRelease 2 2 = some (.row (some .released), 1) ∧
    tried .row7 .cnfPress 2 2 = some (.row none, 0) := by decide
theorem test_row8 : tried .row8 .cnfRelease 1 2 = some (.row (some .pressed), 0) ∧
    tried .row8 .cnfRelease 2 2 = some (.row none, 0) := by decide
theorem test_row9 : tried .row9 .cnfRelease 0x10 3 = some (.row (some .released), 0) ∧
    tried .row9 .cnfPress 0x10 3 = some (.row none, 0) := by decide
theorem test_row10 : tried .row10 .stuck 0x10 4 = some (.row (some .released), 1) ∧
    tried .row10 .stuck 0x11 4 = some (.row none, 0) := by decide
-- V34, V36
theorem test_row_ignored_bits : tried (.row (.ofWord 0x67FC053F)) .cnfPress 1 2 = some (.row (some .pressed), 1) := by
  decide
theorem test_row_notify_derives_nothing :
    tried (.row (.ofWord 0x43FC02E0)) .released 0x10 1 = some (.row (some .cnfPress), 0) := by decide
-- V34: `cur` 0 and 7 and `evsel` 5 never match; V31: the mask
theorem test_match_never : seen (exec (.matchRow ⟨.noState, .tick, 0xFF, false, 1, .released, .nop, 0⟩ .noState 0x10 0 1)
    (small .reset true)) (fun s => s.res) = some (.bit false) := by decide
theorem test_match_mask :
    [0, 1, 2, 3, 4, 5, 6, 7].map (fun d => seen (exec (.matchRow ⟨.released, .tick, 0x05, false, 1, .cnfPress, .nop, 0⟩
      .released 0x10 d 1) (small .reset true)) fun s => s.res) =
      [true, true, false, false, true, true, false, false].map fun b => some (.bit b) := by decide
theorem test_actNop : seen (exec (.actNop 0 1 0 2) (small .reset true)) (fun s => (s.queue.posted, s.history)) =
    some (0, []) := by decide
-- V35: a failed post is recorded
theorem test_actNotify : seen (exec (.actNotify 0 0x10 0 3) (small .reset true)) (fun s => s.history) =
    some [.post 4 0 0x00A5 3 0 true] := by decide
theorem test_actNotify_fails :
    seen (exec (.actNotify 0 1 0 2) { small .reset true with queue := ⟨[false], true, 0⟩ })
      (fun s => (s.history, s.queue.posted)) =
        some ([.post 4 0 0x00A5 1 0 false, .err 4 (some 0) .postFail], 1) := by decide
-- V30
theorem test_outward :
    [(1, 2), (2, 2), (0x10, 2), (0x10, 3), (1, 3), (0x10, 4), (0x10, 0), (0x10, 1), (0x10, 5)].map
      (fun (p : Byte × Byte) => seen (exec (.outward p.1 p.2) (small .reset true)) fun s => s.res) =
      [1, 2, 0, 3, 3, 4, 0, 0, 0].map fun id => some (.ident id) := by decide
-- V29, last lines
theorem test_dispatch_row : seen (exec (.dispatch 0 .pressed true 0x10 true)
      (small { atPoint .pressed .exit with xr := 3 } true)) (fun s => (s.res, s.history, s.as 0)) =
    some (.state .stuck, [.post 4 0 0x00A5 3 0 true], .pressed) := by decide
theorem test_dispatch_unmatched : seen (exec (.dispatch 0 .pressed true 0x10 true)
      (small { atPoint .pressed .exit with xr := 2 } true)) (fun s => (s.res, s.history)) =
    some (.state .noState, [.err 4 (some 0) .unmatched]) := by decide

/-! ### Filter, timers, ports: V1 to V11 -/

theorem test_filterSeed : seen (exec (.filterSeed 0) (small { Inst.reset with acc := 0x5A } true)) (fun s => s.acc 0) =
    some 0x01 := by decide
theorem test_filterShift : [(0x80, false), (0x80, true), (0x7F, true), (0xC3, true), (0xFF, false)].map
      (fun (p : Byte × Bool) => seen (exec (.filterShift 0 p.2) (small { Inst.reset with acc := p.1 } true))
        fun s => s.acc 0) = [some 0x00, some 0x01, some 0xFF, some 0x87, some 0xFE] := by decide
theorem test_filterClass : [0x00, 0xFF, 0x01, 0x7F, 0x80, 0xFE].map
      (fun a => seen (exec (.filterClass 0) (small { Inst.reset with acc := a } true)) fun s => s.res) =
      [.released, .pressed, .neither, .neither, .neither, .neither].map fun q => some (.qual q) := by decide
theorem test_timerArm : seen (exec (.timerArm .tstk 0) (small { Inst.reset with tdb := 3, tstk := 17 } true))
    (fun s => (s.tdb 0, s.tstk 0)) = some (3, 0) := by decide
theorem test_timerAdvance : seen (exec .timerAdvance (small { Inst.reset with tdb := 65534, tstk := 65535 } true))
    (fun s => (s.tdb 0, s.tstk 0, s.tdb 1)) = some (65535, 65535, 1) := by decide
theorem test_timerExpired : [(9, 10), (10, 10), (0, 0), (0, 1), (65534, 65535), (65535, 65535)].map
      (fun (p : Half × Half) => seen (exec (.timerExpired .tdb 0 p.2) (small { Inst.reset with tdb := p.1 } true))
        fun s => s.res) = [false, true, true, false, false, true].map fun b => some (.bit b) := by decide
theorem test_pull : seen (exec (.pull 1 0) (small .reset true)) (fun s => (s.res, (s.chan 0).pulled, s.history)) =
    some (.bit true, 1, [.pull 4 1 0 true]) := by decide
theorem test_post : seen (exec (.post 1 0x00A5 4 1) (small .reset true)) (fun s => (s.res, s.queue.posted, s.history)) =
    some (.bit true, 1, [.post 4 1 0x00A5 4 1 true]) := by decide

/-! ### The step, the fetch word and scripts -/

theorem test_step_fetches_command :
    seen (step ((small .reset true).withFetchWord 32 0x401100A6)) (fun s => (s.tickid, s.qh, s.port)) =
      some (0x11, 0x00A6, []) := by decide
theorem test_step_fetches_control_word :
    seen (step ((small .reset true).withFetchWord 8 0x09)) (fun s => s.history) = some [.pull 4 0 0 true] := by decide
theorem test_step_fetches_row :
    seen (step ((small .reset true).withFetchWord 32 0x83FC07A0)) (fun s => s.res) = some (.row none) := by decide
theorem test_step_idle : seen (step (small .reset true)) (fun s => s) = some (small .reset true) := by decide
-- R70, R71, V38
theorem test_script_words : scriptWords 0 [.boot 0x00A5 0x10, .tick none true false, .ticks 1] =
    [0x00000000, 0x401000A5, 0x90100000, 0xB0100000] := by decide

/-! ### Witnesses: one theorem for the hypotheses of each statement that has some, at the boundary of each clause -/

/-- The hypothesis that an instance index is in range, at its last value and just outside; of every statement about one
operation on an instance. -/
theorem wit_index : 0 < (small .reset true).count ∧ 1 < (small .reset true).count ∧ (small .reset true).count ≤ 2 := by
  decide

theorem wit_TickWhileDisabled : State.reset.drvEn = false := by decide

/-- AcceptedTickIsAdvanceThenDispatchEach: a tick that re-arms and one that halts. -/
theorem wit_AcceptedTick_rearms :
    (small .reset true).drvEn = true ∧
      seen (exec (.tick true true 0 0x10 0 0) (small .reset true)) (fun s => s.drvEn) = some true := by decide
theorem wit_AcceptedTick_halts :
    (small (atPoint .noState .uninit) true).drvEn = true ∧
      seen (exec (.tick true true 0 0x10 0 0) (small (atPoint .noState .uninit) true)) (fun s => (s.drvEn, s.history)) =
        some (false, [.halt 5]) := by decide

theorem wit_TickIgnores : (true = true → (0x10 : Byte) = 0x10) ∧ (false = true → (0x11 : Byte) = 0x10) := by decide

theorem wit_MalformedTick : (small .reset true).drvEn = true ∧ (false = false ∨ true = false) ∧
    (true = false ∨ false = false) := by decide

theorem wit_SetupAfterFailure : 0 < (small (atPoint .noState .uninit) true).count ∧
    (small (atPoint .noState .uninit) true).as 0 = .noState ∧
    (small (atPoint .noState .uninit) true).cfg.failPolicy = .globalHalt := by decide

theorem wit_ReleasedSteps : (small .reset true).nextSample 0 = true ∧ (small .reset true).nextSample 1 = false := by
  decide

/-- ConfirmOperQualifiesBeforeItTimesOut: the two qualifying values, and the window at and just below its end. -/
theorem wit_ConfirmOper_pressed : shifted ((small { Inst.reset with acc := 0x7F } true).acc 0)
    ((small { Inst.reset with acc := 0x7F } true).nextSample 0) = 0xFF := by decide
theorem wit_ConfirmOper_released : shifted ((small { Inst.reset with acc := 0x80 } false).acc 0)
    ((small { Inst.reset with acc := 0x80 } false).nextSample 0) = 0x00 := by decide
theorem wit_ConfirmOper_window :
    ¬((0x7F : Byte) = 0x00 ∨ (0x7F : Byte) = 0xFF) ∧
    shifted ((small { Inst.reset with acc := 0x3F, tdb := 10 } true).acc 0)
      ((small { Inst.reset with acc := 0x3F, tdb := 10 } true).nextSample 0) = 0x7F ∧
    build.debounceTicks.toNat ≤ ((small { Inst.reset with acc := 0x3F, tdb := 10 } true).tdb 0).toNat ∧
    ((small { Inst.reset with acc := 0x3F, tdb := 9 } true).tdb 0).toNat < build.debounceTicks.toNat := by decide

theorem wit_ConfirmExit : (small { Inst.reset with xr := 2, acc := 0xFF } true).xr 0 = 2 ∧
    (small { Inst.reset with xr := 2, acc := 0xFF } true).acc 0 = 0xFF ∧
    (small { Inst.reset with xr := 2, acc := 0x00 } true).acc 0 = 0x00 ∧
    (small { Inst.reset with xr := 3 } true).xr 0 ≠ 2 ∧
    (small { Inst.reset with xr := 2, acc := 0x55 } true).acc 0 ≠ 0xFF ∧
    (small { Inst.reset with xr := 2, acc := 0x55 } true).acc 0 ≠ 0x00 := by decide

theorem wit_PressedSteps : (small .reset false).nextSample 0 = false ∧ (small .reset true).nextSample 0 = true ∧
    build.stuckTicks.toNat ≤ ((small { Inst.reset with tstk := 30 } true).tstk 0).toNat ∧
    ((small { Inst.reset with tstk := 29 } true).tstk 0).toNat < build.stuckTicks.toNat := by decide

theorem wit_StuckSteps : (0 : Nat) = (if (small .reset false).cfg.stuckCh0 then 0 else 1) ∧
    (small .reset false).nextSample 0 = false ∧ (small .reset true).nextSample 0 = true ∧
    (1 : Nat) = (if { build with stuckCh0 := false }.stuckCh0 then 0 else 1) := by decide

theorem wit_StepRunsTheControlWord :
    ((small (atPoint .stuck .exit) true).as 0 ≠ .noState ∧ (small (atPoint .stuck .exit) true).as 0 ≠ .reserved7) ∧
    (small (atPoint .noState .uninit) true).as 0 = .noState ∧
    (small (atPoint .reserved7 .uninit) true).as 0 = .reserved7 := by decide

theorem wit_StepMovesOnePhase : ∃ t, exec (.step .released 0 true 0x10 true) (small (atPoint .released .oper) true) = .next t :=
  ⟨_, rfl⟩

theorem wit_StepOfOneInstance_step : 0 ≠ 1 ∧
    ∃ t, exec (.step .released 0 true 0x10 true) (small (atPoint .released .oper) true) = .next t :=
  ⟨by decide, _, rfl⟩

theorem wit_StepOfOneInstance_dispatch : 0 ≠ 1 ∧
    ∃ t, exec (.dispatch 0 .released true 0x10 true) (small (atPoint .released .exit) true) = .next t :=
  ⟨by decide, _, rfl⟩

/-- DispatchIsOneStepThenTheRowSearch: not done, done and matched, done and unmatched. -/
theorem wit_Dispatch_notDone : (stepInst .released 0 true 0x10 true (small (atPoint .released .oper) true)).1 = .notDone := by
  decide
theorem wit_Dispatch_done : (stepInst .released 0 true 0x10 true (small (atPoint .released .exit) true)).1 =
    .done 0x10 0 1 := by decide

/-- RowMatchesThenActsThenGivesNext: every row constructor has a row. -/
theorem wit_Row_all (x : ExitOut) :
    [Instr.row (.ofWord 0x400002C0) x, .row0 x, .row1 x, .row2 x, .row3 x, .row4 x, .row5 x, .row6 x, .row7 x, .row8 x,
      .row9 x, .row10 x].all (fun i => (rowOf i).isSome) = true := rfl

theorem wit_Row_fits : rowOf (.row6 ⟨0, .pressed, 0x10, 0, 3⟩) = some (.ofWord 0x83FC07A0, ⟨0, .pressed, 0x10, 0, 3⟩) ∧
    RowFits (.ofWord 0x83FC07A0) .pressed 0x10 0 3 (small .reset true) ∧
    ¬RowFits (.ofWord 0x83FC07A0) .pressed 0x10 0 1 (small .reset true) := by
  unfold RowFits
  decide

theorem wit_DefaultTableMatchesAtMostOneRow : build.wf = true ∧ (small .reset true).cfg.table = defaultTable ∧
    (small .reset true).cfg.table[6]? = some 0x83FC07A0 ∧
    RowFits (.ofWord 0x83FC07A0) .pressed 0x10 0 3 (small .reset true) := by
  unfold RowFits
  decide

theorem wit_DefaultTableFollowsTheStateGraph : (small .reset true).cfg.table = defaultTable ∧
    seen (exec (.dispatch 0 .released true 0x10 true) (small (atPoint .released .exit) true)) (fun t => t.res) =
      some (.state .cnfPress) := by decide

theorem wit_DispatchMakesAtMostOneRequest :
    ∃ t, exec (.dispatch 0 .stuck true 0x10 true) (small (atPoint .stuck .exit) true) = .next t := ⟨_, rfl⟩

theorem wit_PullConsumes : 1 < (small .reset true).count ∧
    (Channel.mk [true] false 0).samples[0]? = some true ∧
    (Channel.mk [true] false 1).samples.length ≤ (Channel.mk [true] false 1).pulled := by decide

theorem wit_QueueAnswers : ∃ t, step { small (atPoint .stuck .exit) true with port := [.command 0xB0100000] } = .next t :=
  ⟨_, rfl⟩

/-- StepRunsTheFetchedOperation: each form of the port. -/
theorem wit_StepRuns : (small .reset true).port = [] ∧
    { small .reset true with port := [.command 0, .command 1] }.port = .command 0 :: [.command 1] ∧
    { small .reset true with port := [.control 1 0x10] }.port = [.control 1 0x10] ∧
    (small .reset true).cfg.table[10]? = some 0xC3FC08A0 ∧
    { small .reset true with port := [.action 1 0 0 0 0] }.port = [.action 1 0 0 0 0] := by decide

theorem wit_DecodeUndoesEncode : (Instr.tick true false 0xF 0x10 0x7E 0x99).wf = true ∧
    encode (.tick true false 0xF 0x10 0x7E 0x99) = some (.hc 0xAF107E99) ∧
    encode (.row (.ofWord 0x400002DF) ⟨7, .stuck, 0, 0, 0⟩) = some (.row 0x400002DF) := by decide

theorem wit_InvariantHoldsAtReset : build.wf = true ∧
    [Channel.mk [] true 0, Channel.mk [true] false 0].length = build.n := by decide

/-- The registers after reset are legal. -/
theorem reset_legal : Inst.reset.Legal where
  known := by decide
  idle := by
    intro f _
    left
    cases f <;> rfl
  start := by
    show Phase.uninit ≠ .oper
    decide
  reasons := ⟨fun h => absurd h (by decide), fun h => absurd h (by decide)⟩

/-- The registers of an instance about to leave Released are legal. -/
theorem released_legal (p : Phase) : (atPoint .released p).Legal where
  known := by
    show StateId.released ≠ .reserved7
    decide
  idle := by
    intro f h
    left
    cases f
    · rfl
    · exact absurd rfl h
    · rfl
    · rfl
    · rfl
  start := by
    show Phase.uninit ≠ .oper
    decide
  reasons := ⟨fun h => absurd (show funcOf .released = some .confirm from h) (by decide),
    fun h => absurd (show StateId.released = .pressed from h) (by decide)⟩

theorem small_released_inv (p : Phase) : (small (atPoint .released p) true).Inv where
  build := by
    show build.wf = true
    decide
  copies := rfl
  legal := by
    intro l hl
    simp only [small, List.mem_cons, List.not_mem_nil, or_false] at hl
    rcases hl with rfl | rfl
    · exact released_legal p
    · exact reset_legal

theorem wit_EveryStepKeepsTheInvariant :
    (small (atPoint .released .exit) true).Inv ∧
      ({ small (atPoint .released .exit) true with port := [.command 0xB0100000] }).Inv ∧
      ∃ t, step { small (atPoint .released .exit) true with port := [.command 0xB0100000] } = .next t :=
  ⟨small_released_inv .exit, ⟨(small_released_inv .exit).build, rfl, (small_released_inv .exit).legal⟩, _, rfl⟩

theorem wit_NoStepWritesTheRom : ∃ t, step { small .reset true with port := [.romRow 10 ⟨0, .stuck, 0x10, 0, 4⟩] } = .next t :=
  ⟨_, rfl⟩

theorem wit_SentinelIsLeft :
    0 < (small (atPoint .noState .uninit) true).count ∧ (small (atPoint .noState .uninit) true).as 0 = .noState ∧
      (∃ t, step { small (atPoint .noState .uninit) true with port := [.command 0x401000A5] } = .next t) ∧
      ∀ ig, decodeHC 0x401000A5 ≠ .reset ig :=
  ⟨by decide, by decide, ⟨_, rfl⟩, fun ig h => by cases h⟩

theorem wit_TickRecords : (small (atPoint .noState .uninit) true).drvEn = true ∧
    ∃ t, exec (.tick true true 0 0x10 0 0) (small (atPoint .noState .uninit) true) = .next t :=
  ⟨by decide, _, rfl⟩

theorem wit_DisciplinedHost :
    ({ small (atPoint .released .exit) true with port := [.command 0xB0100000] }).Disciplined ∧
      ∃ t, step { small (atPoint .released .exit) true with port := [.command 0xB0100000] } = .next t := by
  refine ⟨⟨⟨(small_released_inv .exit).build, rfl, (small_released_inv .exit).legal⟩, rfl, ?_, ?_⟩, _, rfl⟩
  · intro q hq
    simp only [List.mem_cons, List.not_mem_nil, or_false] at hq
    subst hq
    exact ⟨0xB0100000, 0, 0, 0, rfl, by decide⟩
  · intro l hl
    simp only [small, List.mem_cons, List.not_mem_nil, or_false] at hl
    rcases hl with rfl | rfl
    · exact ⟨released_legal .exit, by decide, fun h => absurd h (by decide)⟩
    · exact ⟨reset_legal, by decide, fun _ h => absurd h (by decide)⟩

/-- BootStartsADisciplinedRun: an instance at the sentinel, nothing at the port. -/
theorem wit_Boot_failed :
    let s := small (atPoint .noState .uninit) true
    s.cfg.wf = true ∧ s.lanes.length = s.cfg.n ∧ s.cfg.table = defaultTable ∧ ∀ q ∈ s.port, q.disciplined 0x22 :=
  ⟨by decide, rfl, rfl, fun _ hq => absurd hq List.not_mem_nil⟩

/-- BootStartsADisciplinedRun: a TICK with the identifier SETUP gives already at the port. -/
theorem wit_Boot_waiting :
    let s : State := { small (atPoint .stuck .oper) true with port := [.command 0xB0220000] }
    s.cfg.wf = true ∧ s.lanes.length = s.cfg.n ∧ s.cfg.table = defaultTable ∧ ∀ q ∈ s.port, q.disciplined 0x22 := by
  refine ⟨by decide, rfl, rfl, fun q hq => ?_⟩
  obtain rfl := List.mem_singleton.mp hq
  exact ⟨0xB0220000, 0, 0, 0, rfl, by decide⟩

/-- ButtonsDoNotInterfere: the same button beside another button and beside none. -/
theorem wit_ButtonsDoNotInterfere :
    let l : Lane := ⟨atPoint .released .oper, ⟨[], true, 0⟩⟩
    let c : Config := { build with stuckCh0 := false }
    let s : State := { small (atPoint .released .oper) true with cfg := c }
    let s' : State := { s with lanes := [l] }
    c.stuckCh0 = false ∧ s'.cfg = s.cfg ∧ s'.tickid = s.tickid ∧ s'.drvEn = s.drvEn ∧ s.lanes[0]? = some l ∧
      s'.lanes[0]? = some l ∧
      (∃ t, exec (.tick true true 0 0x10 0 0) s = .next t) ∧ ∃ t', exec (.tick true true 0 0x10 0 0) s' = .next t' :=
  ⟨rfl, rfl, rfl, rfl, rfl, rfl, ⟨_, rfl⟩, _, rfl⟩

/-- ShortWindowNeverPosts: at the longest window it allows. -/
theorem wit_ShortWindow :
    let c : Config := { build with debounceTicks := 6 }
    c.wf = true ∧ c.table = defaultTable ∧ c.debounceTicks.toNat ≤ 6 ∧
      ∃ t, runSteps 3 { State.resetWith c [⟨[], true, 0⟩, ⟨[], false, 0⟩] ⟨[], true, 0⟩ with
        port := [0x00000000, 0x401000A5, 0xB0100000].map Request.command } = some t := by
  refine ⟨by decide, rfl, by decide, _, rfl⟩

/-- CleanPressIsReportedTenTicksLater: at the shortest window it allows. -/
theorem wit_CleanPress :
    let c : Config := { build with debounceTicks := 7, stuckCh0 := false, failPolicy := .perInstance }
    let s : State := { small (atPoint .released .oper) true with cfg := c }
    s.Inv ∧ s.cfg.table = defaultTable ∧ 7 ≤ s.cfg.debounceTicks.toNat ∧ s.cfg.stuckCh0 = false ∧
      s.cfg.failPolicy = .perInstance ∧ s.drvEn = true ∧ 0 < s.count ∧ s.as 0 = .released ∧
      s.ph 0 .released = .oper ∧
      ∀ k < 8, (s.chan 0).samples.getD ((s.chan 0).pulled + k) (s.chan 0).level = true :=
  ⟨⟨by show Config.wf { build with debounceTicks := 7, stuckCh0 := false, failPolicy := .perInstance } = true; decide, rfl,
      (small_released_inv .oper).legal⟩,
    rfl, by decide, rfl, rfl, rfl, by decide, by decide, by decide, by decide⟩

/-- AbsentInstanceOrChannelFaults: each clause at the first absent number and the last present one. -/
theorem wit_AbsentInstance :
    let s := small .reset true
    s.count ≤ 2 ∧ 1 < s.count ∧ instanceOf (.row6 ⟨2, .pressed, 0, 0, 0⟩) = some 2 ∧
      instanceOf (.stkOper 1 0) = some 1 ∧ channelOf (.pull 9 2) = some 2 ∧ channelOf (.pull 9 1) = some 1 ∧
      instanceOf (.post 9 0 0 0) = none ∧ channelOf (.post 9 0 0 0) = none ∧ s.cfg.table.length ≤ 11 := by decide

theorem test_absent_number_at_the_port :
    step { small .reset true with port := [.control 2 0] } = .fault (.noSuchInstance 2) ∧
      step { small .reset true with port := [.romRow 11 ⟨0, .start, 0, 0, 0⟩] } = .fault (.noSuchRow 11) := ⟨rfl, rfl⟩

theorem wit_StatusOutputs : (small .reset true).drvEn = true ∧ State.reset.drvEn = false ∧
    funcOf ((small .reset true).as 0) = some .start := by decide

end Sys2Proof.Tests
end

section
/-! O43 (10_state.md R27). Two states with the same block differ in the queue, the history and the value last returned
only. No fetch, step, row search or driver turn reads those three, so each keeps the relation. POST alone answers with
what the queue says; no word decodes to it, so no request at the port runs it. -/

namespace Sys2Proof.Machine

open Sys2Proof

/-! ### States with the same block -/

/-- `t` differs from `s` at most in the queue, the history and the value last returned. -/
def SameBlock (s t : State) : Prop := ∃ q h r, t = { s with queue := q, history := h, res := r }

namespace SameBlock

variable {s s' t t' u : State}

theorem symm (h : SameBlock s t) : SameBlock t s := by
  obtain ⟨q, l, r, rfl⟩ := h
  exact ⟨s.queue, s.history, s.res, rfl⟩

theorem trans (h : SameBlock s t) (k : SameBlock t u) : SameBlock s u := by
  obtain ⟨q, l, r, rfl⟩ := h
  obtain ⟨q, l, r, rfl⟩ := k
  exact ⟨q, l, r, rfl⟩

theorem of_onlyOutside (h : OnlyOutside s t) : SameBlock s t := ⟨t.queue, t.history, s.res, h⟩

/-- What an action or an error record does on each side keeps the blocks the same. -/
theorem outside (h : SameBlock s s') (k : OnlyOutside s t) (k' : OnlyOutside s' t') : SameBlock t t' :=
  (of_onlyOutside k).symm.trans (h.trans (of_onlyOutside k'))

theorem cfg (h : SameBlock s t) : t.cfg = s.cfg := by obtain ⟨q, l, r, rfl⟩ := h; rfl
theorem drvEn (h : SameBlock s t) : t.drvEn = s.drvEn := by obtain ⟨q, l, r, rfl⟩ := h; rfl
theorem tickid (h : SameBlock s t) : t.tickid = s.tickid := by obtain ⟨q, l, r, rfl⟩ := h; rfl
theorem port (h : SameBlock s t) : t.port = s.port := by obtain ⟨q, l, r, rfl⟩ := h; rfl
theorem count (h : SameBlock s t) : t.count = s.count := by obtain ⟨q, l, r, rfl⟩ := h; rfl
theorem inst (h : SameBlock s t) (i : Nat) : t.inst i = s.inst i := by obtain ⟨q, l, r, rfl⟩ := h; rfl
theorem as (h : SameBlock s t) (i : Nat) : t.as i = s.as i := congrArg Inst.as (h.inst i)
theorem nextSample (h : SameBlock s t) (c : Nat) : t.nextSample c = s.nextSample c := by
  obtain ⟨q, l, r, rfl⟩ := h; rfl
theorem fetch (h : SameBlock s t) (q : Request) : fetch q t = fetch q s := by
  obtain ⟨q, l, r, rfl⟩ := h; rfl

theorem withInst (h : SameBlock s t) (i : Nat) (x : Inst) : SameBlock (s.withInst i x) (t.withInst i x) := by
  obtain ⟨q, l, r, rfl⟩ := h; exact ⟨q, l, r, rfl⟩

theorem setAs (h : SameBlock s t) (i : Nat) (v : StateId) : SameBlock (s.setAs i v) (t.setAs i v) := by
  obtain ⟨q, l, r, rfl⟩ := h; exact ⟨q, l, r, rfl⟩

theorem pulled (h : SameBlock s t) (p : Bool) (i c : Nat) : SameBlock (s.pulled p i c) (t.pulled p i c) := by
  obtain ⟨q, l, r, rfl⟩ := h
  cases p
  · exact ⟨q, l, r, rfl⟩
  · exact ⟨q, _, r, rfl⟩

theorem stepped (h : SameBlock s t) (i c : Nat) (e : Effect) : SameBlock (s.stepped i c e) (t.stepped i c e) :=
  (h.pulled e.pulls i c).withInst i e.inst

theorem halt (h : SameBlock s t) : SameBlock s.halt t.halt := by
  obtain ⟨q, l, r, rfl⟩ := h; exact ⟨q, _, r, rfl⟩

theorem rearm (h : SameBlock s t) : SameBlock s.rearm t.rearm := by
  obtain ⟨q, l, r, rfl⟩ := h; exact ⟨q, l, r, rfl⟩

/-- The start of an accepted TICK: the count and the timers. -/
theorem tickStart (h : SameBlock s t) :
    SameBlock (timerAdvance { s with tickNo := s.tickNo + 1 }) (timerAdvance { t with tickNo := t.tickNo + 1 }) := by
  obtain ⟨q, l, r, rfl⟩ := h; exact ⟨q, l, r, rfl⟩

theorem resetRegs (h : SameBlock s t) : SameBlock (resetRegs s) (resetRegs t) := by
  obtain ⟨q, l, r, rfl⟩ := h; exact ⟨q, l, r, rfl⟩

theorem setupRegs (h : SameBlock s t) (id : Byte) (qh : Half) :
    SameBlock (setupRegs id qh s) (setupRegs id qh t) := by
  obtain ⟨q, l, r, rfl⟩ := h; exact ⟨q, l, r, rfl⟩

theorem withPort (h : SameBlock s t) (p : List Request) : SameBlock { s with port := p } { t with port := p } := by
  obtain ⟨q, l, r, rfl⟩ := h; exact ⟨q, l, r, rfl⟩

/-- With the same answer written, only the queue and the history still differ. -/
theorem answer (h : SameBlock s t) (r : Result) : OnlyOutside (s.answer r) (t.answer r) := by
  obtain ⟨q, l, r', rfl⟩ := h; rfl

end SameBlock

/-! ### Operations that answer alike -/

/-- Two runs of one operation answer alike: the same value, and states with the same block. -/
def SameRun {α : Type} (p p' : α × State) : Prop := p'.1 = p.1 ∧ SameBlock p.2 p'.2

/-- Two outcomes agree: the same stop, or next states that differ in the queue and the history only. -/
inductive SameOutcome : Host.Outcome State Fault Refusal → Host.Outcome State Fault Refusal → Prop where
  | next {t t' : State} : OnlyOutside t t' → SameOutcome (.next t) (.next t')
  | fault (f : Fault) : SameOutcome (.fault f) (.fault f)
  | refused (r : Refusal) : SameOutcome (.refused r) (.refused r)

theorem SameOutcome.next_left {t : State} {o : Host.Outcome State Fault Refusal} (h : SameOutcome (.next t) o) :
    ∃ t', o = .next t' ∧ OnlyOutside t t' := by
  cases h with
  | next k => exact ⟨_, rfl, k⟩

section

variable {s s' : State} (h : SameBlock s s')
include h

theorem onInstance_sameOutcome {i : Nat} {t t' : State} (k : i < s.count → OnlyOutside t t') :
    SameOutcome (onInstance i s t) (onInstance i s' t') := by
  unfold onInstance
  rw [h.count]
  split
  · next hi => exact .next (k hi)
  · exact .fault _

/-! ### Steps and rows -/

/-- A phase action reads the build, the registers of its button and one sample. -/
theorem phaseAction_sameRun (f : Func) (p : Phase) {i : Nat} (evid : Byte) (hi : i < s.count) :
    SameRun (phaseAction f p i evid s) (phaseAction f p i evid s') := by
  rw [phaseAction_eq f p i evid s hi, phaseAction_eq f p i evid s' (h.count ▸ hi), h.cfg, h.nextSample, h.inst]
  exact ⟨rfl, (h.stepped i _ _).outside (raised_onlyOutside _ _ _) (raised_onlyOutside _ _ _)⟩

/-- A row is matched against the build and `TICKID`; its action stays outside the block. -/
theorem tryRow_sameRun (w : Row) (x : ExitOut) : SameRun (tryRow w x s) (tryRow w x s') := by
  unfold tryRow
  rw [rowMatches_congr h.cfg h.tickid]
  split
  · exact ⟨rfl, h.outside (runAction_onlyOutside ..) (runAction_onlyOutside ..)⟩
  · exact ⟨rfl, h⟩

theorem nextState_sameBlock (i : Nat) (st : StateId) (r : StepResult) : nextState s' i st r = nextState s i st r := by
  cases r with
  | notDone => rfl
  | done evoId evoData rsn => simp only [nextState, h.cfg, findRow_congr h.cfg h.tickid]

/-! ### The driver -/

theorem dispatchInst_sameRun {i : Nat} (st : StateId) (ev : Bool) (evid : Byte) (rv : Bool) (hi : i < s.count) :
    SameRun (dispatchInst i st ev evid rv s) (dispatchInst i st ev evid rv s') := by
  cases hs : isSentinel st with
  | true =>
    rw [dispatchInst_sentinel hs, dispatchInst_sentinel hs]
    exact ⟨rfl, h⟩
  | false =>
    obtain ⟨hnext, hout⟩ := dispatchInst_spec hs hi ev evid rv _ rfl
    obtain ⟨hnext', hout'⟩ := dispatchInst_spec hs (h.count ▸ hi : i < s'.count) ev evid rv _ rfl
    rw [h.cfg, h.nextSample, h.inst] at hnext' hout'
    exact ⟨by rw [hnext, hnext', nextState_sameBlock h], (h.stepped i _ _).outside hout hout'⟩

theorem driveOne_sameRun {i : Nat} (ev rv : Bool) (evid : Byte) (f : Bool) (hi : i < s.count) :
    SameRun (driveOne ev rv evid i (f, s)) (driveOne ev rv evid i (f, s')) := by
  obtain ⟨hnext, hblock⟩ := dispatchInst_sameRun h (s.as i) ev evid rv hi
  unfold driveOne
  simp only [h.as, h.cfg, hnext]
  exact ⟨rfl, hblock.setAs i _⟩

end

theorem driveAll_sameRun (ev rv : Bool) (evid : Byte) :
    ∀ (k : Nat) (f : Bool) {s s' : State}, SameBlock s s' → k ≤ s.count →
      SameRun (driveAll ev rv evid k (f, s)) (driveAll ev rv evid k (f, s')) := by
  intro k
  induction k with
  | zero => exact fun f _ _ h _ => ⟨rfl, h⟩
  | succ k ih =>
    intro f s s' h hk
    obtain ⟨hfail, hblock⟩ := driveOne_sameRun h ev rv evid f hk
    obtain ⟨-, -, -, -, -, -, -, -, hcount⟩ := driveOne_inst (f := f) hk ev rv evid
    have hrest := ih (driveOne ev rv evid k (f, s)).1 hblock (by omega)
    have hpair : driveOne ev rv evid k (f, s') =
        ((driveOne ev rv evid k (f, s)).1, (driveOne ev rv evid k (f, s')).2) := Prod.ext hfail rfl
    rw [driveAll, driveAll, hpair]
    exact hrest

theorem endTick_sameBlock {r r' : Bool × State} (h : SameRun r r') : SameBlock (endTick r) (endTick r') := by
  obtain ⟨hfail, hblock⟩ := h
  unfold endTick
  rw [hfail]
  split
  · exact hblock.halt
  · exact hblock.rearm

theorem acceptedTick_sameBlock {s s' : State} (h : SameBlock s s') (ev rv : Bool) (evid : Byte) :
    SameBlock (acceptedTick ev rv evid s) (acceptedTick ev rv evid s') := by
  unfold acceptedTick
  rw [h.count]
  exact endTick_sameBlock (driveAll_sameRun ev rv evid _ false h.tickStart (by simp [State.count]))

/-! ### What a word of each format runs -/

/-- The control word of a state that takes steps runs the phase action of its state function (30_encoding.md R62). -/
theorem exec_stepOf_of_func {st : StateId} {f : Func} (hf : funcOf st = some f) (p : Phase) (i : Nat) (evid : Byte)
    (s : State) : exec (stepOf st p i evid) s = onStep i s (phaseAction f p i evid s) := by
  cases st <;> cases hf <;> cases p <;> rfl

/-- The control word of the sentinel or of code 7 takes no step (30_encoding.md R62). -/
theorem exec_stepOf_of_none {st : StateId} (hf : funcOf st = none) (p : Phase) (i : Nat) (evid : Byte) (s : State) :
    exec (stepOf st p i evid) s = onInstance i s (s.answer (.state .noState)) := by
  cases st <;> cases hf <;> rfl

/-- An action code runs its action (30_encoding.md R65). -/
theorem exec_decodeAct (w : BitVec 1) (i : Nat) (evoId evoData rsn : Byte) (s : State) :
    exec (decodeAct w i evoId evoData rsn) s =
      onInstance i s ((runAction (Act.ofCode w) ⟨i, .noState, evoId, evoData, rsn⟩ s).answer .nothing) := by
  unfold decodeAct
  cases Act.ofCode w <;> rfl

/-- A choice by a word runs as `o` where both of its operations do. -/
theorem exec_ite_eq {w v : Word} {i j : Instr} {s : State} {o : Host.Outcome State Fault Refusal}
    (hi : w = v → exec i s = o) (hj : exec j s = o) : exec (if w = v then i else j) s = o := by
  split
  · next h => exact hi h
  · exact hj

/-- A ROM word runs the row it encodes, the default rows' words too (30_encoding.md R66). -/
theorem exec_decodeRow (w : Word) (x : ExitOut) (s : State) :
    exec (decodeRow w x) s = onRow (Row.ofWord w) x s := by
  unfold decodeRow
  iterate 11 refine exec_ite_eq (by rintro rfl; exact congrArg (onRow · x s) (by decide)) ?_
  rfl

/-! ### One step of the machine -/

section

variable {s s' : State} (h : SameBlock s s')
include h

theorem execTick_sameOutcome (ev rv : Bool) (ig : BitVec 4) (evid evdata aux : Byte) :
    SameOutcome (execTick ev rv ig evid evdata aux s) (execTick ev rv ig evid evdata aux s') := by
  unfold execTick
  rw [h.drvEn]
  split
  · exact .next ((acceptedTick_sameBlock h ev rv evid).answer _)
  · exact .next (h.answer _)

theorem decodeHC_sameOutcome (w : Word) : SameOutcome (exec (decodeHC w) s) (exec (decodeHC w) s') := by
  unfold decodeHC
  split
  · exact .next (h.resetRegs.answer _)
  · exact .next ((h.setupRegs _ _).answer _)
  · exact execTick_sameOutcome h _ _ (bits 27 24 w) _ (bits 15 8 w) (bits 7 0 w)
  · exact .next ((h.outside (raise_onlyOutside ..) (raise_onlyOutside ..)).answer _)

theorem stepOf_sameOutcome (st : StateId) (p : Phase) (i : Nat) (evid : Byte) :
    SameOutcome (exec (stepOf st p i evid) s) (exec (stepOf st p i evid) s') := by
  cases hf : funcOf st with
  | none =>
    rw [exec_stepOf_of_none hf, exec_stepOf_of_none hf]
    exact onInstance_sameOutcome h fun _ => h.answer _
  | some f =>
    rw [exec_stepOf_of_func hf, exec_stepOf_of_func hf]
    refine onInstance_sameOutcome h fun hi => ?_
    obtain ⟨hres, hblock⟩ := phaseAction_sameRun h f p evid hi
    rw [hres]
    exact hblock.answer _

theorem decodeAct_sameOutcome (w : BitVec 1) (i : Nat) (evoId evoData rsn : Byte) :
    SameOutcome (exec (decodeAct w i evoId evoData rsn) s) (exec (decodeAct w i evoId evoData rsn) s') := by
  rw [exec_decodeAct, exec_decodeAct]
  exact onInstance_sameOutcome h fun _ =>
    (h.outside (runAction_onlyOutside ..) (runAction_onlyOutside ..)).answer _

theorem decodeRow_sameOutcome (w : Word) (x : ExitOut) :
    SameOutcome (exec (decodeRow w x) s) (exec (decodeRow w x) s') := by
  rw [exec_decodeRow, exec_decodeRow]
  refine onInstance_sameOutcome h fun _ => ?_
  obtain ⟨hres, hblock⟩ := tryRow_sameRun h (Row.ofWord w) x
  rw [hres]
  exact hblock.answer _

/-- No operation a word selects reads the queue, the history or the value last returned. -/
theorem decode_sameOutcome (c : Code) (o : Operands) :
    SameOutcome (exec (decode c o) s) (exec (decode c o) s') := by
  cases c with
  | hc w => exact decodeHC_sameOutcome h w
  | cw w => exact stepOf_sameOutcome h ..
  | act w => exact decodeAct_sameOutcome h ..
  | row w => exact decodeRow_sameOutcome h ..

end

/-- A fetched operation is some word's. -/
theorem fetch_op {q : Request} {s : State} {i : Instr} (h : fetch q s = .op i) : ∃ c o, i = decode c o := by
  unfold fetch at h
  split at h
  · exact ⟨_, _, (Fetched.op.inj h).symm⟩
  · split at h
    · exact ⟨_, _, (Fetched.op.inj h).symm⟩
    · cases h
  · split at h
    · exact ⟨_, _, (Fetched.op.inj h).symm⟩
    · cases h
  · exact ⟨_, _, (Fetched.op.inj h).symm⟩

/-- With a request at the port, the step reads neither the queue, nor the history, nor the value last returned. -/
theorem step_sameOutcome {s s' : State} (h : SameBlock s s') {q : Request} {rest : List Request}
    (hp : s.port = q :: rest) : SameOutcome (step s) (step s') := by
  have hp' : s'.port = q :: rest := h.port.trans hp
  simp only [step, hp, hp', h.fetch]
  cases hq : fetch q s with
  | stop f => exact .fault f
  | op i =>
    obtain ⟨c, o, rfl⟩ := fetch_op hq
    exact decode_sameOutcome (h.withPort rest) c o

/-- With nothing at the port the block is idle (60_exceptions.md R208). -/
theorem step_of_port_nil {s : State} (hp : s.port = []) : step s = .next s := by
  simp [step, hp]

/-- Settles O43: with nothing at the port the step is idle; otherwise neither the fetch nor the operation of a word
reads the three fields, and the operation writes the value it returns. -/
theorem queueAnswersNeverReachTheBlock : Obligations.QueueAnswersNeverReachTheBlock := by
  unfold Obligations.QueueAnswersNeverReachTheBlock
  intro s t q l r hstep
  by_cases hp : s.port = []
  · rw [step_of_port_nil hp] at hstep
    cases hstep
    exact ⟨_, step_of_port_nil hp, by simp [hp]⟩
  · obtain ⟨req, rest, hp⟩ := List.exists_cons_of_ne_nil hp
    have hsame : SameOutcome (step s) (step { s with queue := q, history := l, res := r }) :=
      step_sameOutcome ⟨q, l, r, rfl⟩ hp
    rw [hstep] at hsame
    obtain ⟨t', hstep', hout⟩ := hsame.next_left
    refine ⟨t', hstep', ?_⟩
    simpa [hp] using (show t' = { t with queue := t'.queue, history := t'.history } from hout)

end Sys2Proof.Machine
end

section
/-! O32 to O34 (40_filter.md R90 to R92). An operation of the filter reads and writes the one accumulator it names, so
each statement is a fact about a byte: the constant seed, the shift, the two extremes that qualify. -/

namespace Sys2Proof.Machine

open Sys2Proof

/-! ### The accumulator as a byte -/

/-- The shift, bit by bit: the sample below, each old bit one place up, bit 7 discarded. -/
theorem shiftIn_getLsbD (acc : Byte) (b : Bool) {j : Nat} (hj : j < 8) :
    (shiftIn acc b).getLsbD j = if j = 0 then b else acc.getLsbD (j - 1) := by
  cases j with
  | zero => cases b <;> simp [shiftIn]
  | succ k =>
    have hk : k < 8 := by omega
    cases b <;> simp [shiftIn, hj, BitVec.getLsbD_eq_getElem hk]

/-- The model's shift is the rule's concatenation (40_filter.md R91). -/
theorem shiftIn_eq_shifted (acc : Byte) (b : Bool) : shiftIn acc b = shifted acc b := by
  refine BitVec.eq_of_getLsbD_eq fun j hj => ?_
  rw [shiftIn_getLsbD acc b hj, shifted, BitVec.getLsbD_append, bits, BitVec.getLsbD_extractLsb']
  cases j with
  | zero => simp
  | succ k =>
    have hk : k < 7 := by omega
    simp [hk]

theorem qualify_eq_released_iff {acc : Byte} : qualify acc = .released ↔ acc = 0x00 := by
  unfold qualify
  split
  · next h => exact iff_of_true rfl h
  · next h => split <;> exact iff_of_false nofun h

theorem qualify_eq_pressed_iff {acc : Byte} : qualify acc = .pressed ↔ acc = 0xFF := by
  unfold qualify
  split
  · next h => exact iff_of_false nofun (by rw [h]; decide)
  · split
    · next h => exact iff_of_true rfl h
    · next h => exact iff_of_false nofun h

/-! ### The filter's operations -/

/-- A write of `ACC[i]` replaces the registers of instance `i`, the other registers among them kept. -/
theorem setAcc_eq_withInst (s : State) (i : Nat) (v : Byte) :
    s.setAcc i v = s.withInst i { s.inst i with acc := v } :=
  mapInst_eq_withInst s i fun x => { x with acc := v }

/-- Settles O32: the seed is a constant written to `ACC[i]`. -/
theorem filterSeedWritesOne : Obligations.FilterSeedWritesOne := by
  unfold Obligations.FilterSeedWritesOne
  intro i s hi
  calc exec (.filterSeed i) s
    _ = onInstance i s ((s.setAcc i 0x01).answer .nothing) := rfl
    _ = .next ((s.setAcc i 0x01).answer .nothing) := onInstance_of_lt hi _
    _ = .next ((s.withInst i { s.inst i with acc := 0x01 }).withRes .nothing) := by
      rw [setAcc_eq_withInst]; rfl

/-- Settles O33: the value written to `ACC[i]` is the rule's concatenation. -/
theorem filterShiftTakesTheSampleInBitZero : Obligations.FilterShiftTakesTheSampleInBitZero := by
  unfold Obligations.FilterShiftTakesTheSampleInBitZero
  intro i b s hi
  calc exec (.filterShift i b) s
    _ = onInstance i s ((s.setAcc i (shiftIn (s.acc i) b)).answer .nothing) := rfl
    _ = .next ((s.setAcc i (shiftIn (s.acc i) b)).answer .nothing) := onInstance_of_lt hi _
    _ = .next ((s.withInst i { s.inst i with acc := shifted (s.acc i) b }).withRes .nothing) := by
      rw [setAcc_eq_withInst, shiftIn_eq_shifted]; rfl

/-- Settles O34: the answer is the class of `ACC[i]`, and only the answer is written. -/
theorem filterClassQualifiesTheTwoExtremes : Obligations.FilterClassQualifiesTheTwoExtremes := by
  unfold Obligations.FilterClassQualifiesTheTwoExtremes
  intro i s hi
  have hexec : exec (.filterClass i) s = .next (s.withRes (.qual (qualify (s.acc i)))) := onInstance_of_lt hi _
  exact ⟨qualify (s.acc i), hexec, qualify_eq_released_iff, qualify_eq_pressed_iff⟩

end Sys2Proof.Machine
end

section
/-! O11 to O13 (42_state_functions.md R115 to R119). A step of Released or of a confirm state, run alone, answers the
effect of its phase action: one replacement of the instance's registers, at most one pull and at most one record. What
is left to say per step is its effect; CNF.OPER's has three cases, in the order of R119. -/

namespace Sys2Proof.Machine

open Sys2Proof

/-! ### A step run alone -/

/-- A step run alone is its phase action's effect, with the result it returns. -/
theorem onStep_phaseAction {i : Nat} {s : State} (hi : i < s.count) (f : Func) (p : Phase) (evid : Byte) {e : Effect}
    (he : actionEffect s.cfg f p i evid (s.nextSample (sampleChannel s.cfg f i)) (s.inst i) = e) :
    onStep i s (phaseAction f p i evid s) =
      .next (((s.stepped i (sampleChannel s.cfg f i) e).raised i e.err).withRes (.step e.res)) := by
  rw [phaseAction_eq f p i evid s hi, he]
  exact onInstance_of_lt hi _

/-- A step that pulls a sample and replaces the instance's registers. -/
theorem stepped_of_pulls {e : Effect} (hp : e.pulls = true) (s : State) (i c : Nat) :
    s.stepped i c e = ((s.withPull c).withInst i e.inst).withRecords [.pull s.tickNo i c (s.nextSample c)] := by
  rw [State.stepped, State.pulled, hp]
  rfl

/-- A step that pulls a sample and changes no register. -/
theorem stepped_of_inst_eq {e : Effect} {s : State} {i : Nat} (hp : e.pulls = true) (hx : e.inst = s.inst i) (c : Nat) :
    s.stepped i c e = (s.withPull c).withRecords [.pull s.tickNo i c (s.nextSample c)] := by
  rw [State.stepped, State.pulled, hp, hx]
  exact pull_withInst_self s i c

/-! ### The three cases of CNF.OPER -/

theorem qualify_eq_neither_iff {acc : Byte} : qualify acc = .neither ↔ ¬(acc = 0x00 ∨ acc = 0xFF) := by
  rw [← qualify_eq_released_iff, ← qualify_eq_pressed_iff]
  cases qualify acc <;> decide

theorem expired_iff {t limit : Half} : expired t limit = true ↔ limit.toNat ≤ t.toNat := decide_eq_true_iff

section

variable {c : Config} {b : Bool} {x : Inst}

/-- A qualification fires, whatever the timer reads. -/
theorem confirmEffect_of_qualified (h : shifted x.acc b = 0x00 ∨ shifted x.acc b = 0xFF) :
    confirmEffect c b x = ⟨.notDone,
      { x with acc := shifted x.acc b, xr := rsnDebounced, ph := x.ph.set .confirm .exit }, true, none⟩ := by
  rw [← shiftIn_eq_shifted] at h ⊢
  exact if_neg fun hq => qualify_eq_neither_iff.mp hq h

/-- Without a qualification the expired window fires, with error class (d). -/
theorem confirmEffect_of_expired (h : ¬(shifted x.acc b = 0x00 ∨ shifted x.acc b = 0xFF))
    (ht : c.debounceTicks.toNat ≤ x.tdb.toNat) :
    confirmEffect c b x = ⟨.notDone,
      { x with acc := shifted x.acc b, xr := rsnTimeout, ph := x.ph.set .confirm .exit }, true, some .timeout⟩ := by
  rw [← shiftIn_eq_shifted] at h ⊢
  exact (if_pos (qualify_eq_neither_iff.mpr h)).trans (if_pos (expired_iff.mpr ht))

/-- Otherwise nothing fires and the accumulator alone is written. -/
theorem confirmEffect_of_waiting (h : ¬(shifted x.acc b = 0x00 ∨ shifted x.acc b = 0xFF))
    (ht : x.tdb.toNat < c.debounceTicks.toNat) :
    confirmEffect c b x = ⟨.notDone, { x with acc := shifted x.acc b }, true, none⟩ := by
  rw [← shiftIn_eq_shifted] at h ⊢
  exact (if_pos (qualify_eq_neither_iff.mpr h)).trans (if_neg fun he => Nat.not_le.mpr ht (expired_iff.mp he))

end

/-! ### The statements -/

/-- Settles O11: REL.OPER pulls in both cases and writes a register only when the sample is a 1. -/
theorem releasedStepsFollowTheSample : Obligations.ReleasedStepsFollowTheSample := by
  unfold Obligations.ReleasedStepsFollowTheSample
  intro c i evid s hi
  have hoper : ∀ b, s.nextSample i = b → exec (.relOper i evid) s =
      .next ((s.stepped i i (actionEffect s.cfg .released .oper i evid b (s.inst i))).withRes (.step .notDone)) := by
    rintro b rfl
    exact onStep_phaseAction hi .released .oper evid rfl
  refine ⟨?entry, fun hb => ?fires, fun hb => ?stays, ?exit⟩
  case entry => exact onStep_phaseAction hi .released .uninit evid rfl
  case fires => rw [hoper true hb, stepped_of_pulls rfl, hb]; rfl
  case stays => rw [hoper false hb, stepped_of_inst_eq rfl rfl, hb]
  case exit => exact onStep_phaseAction hi .released .exit evid rfl

/-- Settles O12: the entry action reads neither the confirm state nor the phase code. -/
theorem confirmEntrySeedsAndArms : Obligations.ConfirmEntrySeedsAndArms := by
  unfold Obligations.ConfirmEntrySeedsAndArms
  intro d c i evid s hi
  exact onStep_phaseAction hi .confirm .uninit evid rfl

/-- Settles O13: the three cases of CNF.OPER's effect, applied to the state. -/
theorem confirmOperQualifiesBeforeItTimesOut : Obligations.ConfirmOperQualifiesBeforeItTimesOut := by
  unfold Obligations.ConfirmOperQualifiesBeforeItTimesOut
  rintro d i evid s acc p hi rfl rfl
  exact ⟨fun hq => onStep_phaseAction hi .confirm .oper evid (confirmEffect_of_qualified hq),
    fun hq ht => onStep_phaseAction hi .confirm .oper evid (confirmEffect_of_expired hq ht),
    fun hq ht => onStep_phaseAction hi .confirm .oper evid (confirmEffect_of_waiting hq ht)⟩

end Sys2Proof.Machine
end

section
/-! O26 and O27 (43_dispatch_table.md R146, R147). An action run alone leaves what its function leaves. For the notifier
that is one idea: the model's chain of tests on the reason is the rule's table of reasons, and with the same identifier
its three outcomes (nothing, a post, a failed post) are the rule's. -/

namespace Sys2Proof.Machine

open Sys2Proof

/-! ### The outward identifier, reason by reason -/

/-- OUTWARD reads the build only, and its tests in order are the table of R148. -/
theorem outwardId_eq_outwardOf (evoId rsn : Byte) (s : State) : outwardId evoId rsn s = outwardOf s.cfg evoId rsn := by
  unfold outwardOf
  split
  case h_1 h =>
    obtain rfl : rsn = rsnDebounced := BitVec.eq_of_toNat_eq h
    simp [outwardId, rsnDebounced, rsnTimeout, rsnUnstuck, evNone]
  case h_2 h =>
    obtain rfl : rsn = rsnTimeout := BitVec.eq_of_toNat_eq h
    rfl
  case h_3 h =>
    obtain rfl : rsn = rsnUnstuck := BitVec.eq_of_toNat_eq h
    rfl
  case h_4 hdeb htmo hunst =>
    have hne : rsn ≠ rsnDebounced ∧ rsn ≠ rsnTimeout ∧ rsn ≠ rsnUnstuck :=
      ⟨fun h => hdeb (congrArg BitVec.toNat h), fun h => htmo (congrArg BitVec.toNat h),
        fun h => hunst (congrArg BitVec.toNat h)⟩
    simp [outwardId, hne, evNone]

/-! ### The notifier's outcomes -/

section

variable {i : Nat} {evoId evoData rsn : Byte} {s : State}

/-- Where no identifier is derived the notifier does nothing. -/
theorem notified_of_none (h : outwardOf s.cfg evoId rsn = evNone) : notified i evoId evoData rsn s = s := if_pos h

/-- Where one is derived it is posted, and a failed post is recorded behind the post. -/
theorem notified_of_ne_none (h : outwardOf s.cfg evoId rsn ≠ evNone) :
    notified i evoId evoData rsn s = s.withPost.withRecords
      (.post s.tickNo i s.qh (outwardOf s.cfg evoId rsn) evoData s.nextAnswer ::
        if s.nextAnswer then [] else [.err s.tickNo (some i) .postFail]) := if_neg h

/-- A post is one answer of the queue consumed and one record (20_memory.md R45). -/
theorem postEvent_eq_withPost (qh : Half) (id data : Byte) :
    (postEvent i qh id data s).2 = s.withPost.withRecords [.post s.tickNo i qh id data s.nextAnswer] := rfl

/-- An error raised after records is the last of them. -/
theorem withRecords_raise (rs : List Record) (j : Option Nat) (e : ErrorClass) :
    (s.withRecords rs).raise j e = s.withRecords (rs ++ [.err s.tickNo j e]) := by
  simp [State.raise, State.log, State.withRecords]

end

/-- ACT_NOTIFY does what R147 says. -/
theorem actNotify_eq_notified (i : Nat) (evoId evoData rsn : Byte) (s : State) :
    actNotify i evoId evoData rsn s = notified i evoId evoData rsn s := by
  rcases actNotify_cases i evoId evoData rsn s with ⟨hid, hact⟩ | ⟨hid, hans, hact⟩ | ⟨hid, hans, hact⟩ <;>
    rw [outwardId_eq_outwardOf] at hid
  case inl => rw [hact, notified_of_none hid]
  case inr.inl =>
    rw [hact, notified_of_ne_none hid, outwardId_eq_outwardOf, postEvent_eq_withPost, hans]
    rfl
  case inr.inr =>
    rw [hact, notified_of_ne_none hid, outwardId_eq_outwardOf, postEvent_eq_withPost, withRecords_raise, hans]
    rfl

/-! ### The statements -/

/-- Settles O26: the action leaves the state, and only the answer is written. -/
theorem actNopChangesNothing : Obligations.ActNopChangesNothing := by
  unfold Obligations.ActNopChangesNothing
  intro i evoId evoData rsn s hi
  calc exec (.actNop i evoId evoData rsn) s
    _ = onInstance i s ((actNop s).answer .nothing) := rfl
    _ = .next ((actNop s).answer .nothing) := onInstance_of_lt hi _
    _ = .next (s.withRes .nothing) := rfl

/-- Settles O27: with the index in range, the answer is the state the notifier leaves. -/
theorem actNotifyPostsTheDerivedIdentifier : Obligations.ActNotifyPostsTheDerivedIdentifier := by
  unfold Obligations.ActNotifyPostsTheDerivedIdentifier
  intro i evoId evoData rsn s hi
  calc exec (.actNotify i evoId evoData rsn) s
    _ = onInstance i s ((actNotify i evoId evoData rsn s).answer .nothing) := rfl
    _ = .next ((actNotify i evoId evoData rsn s).answer .nothing) := onInstance_of_lt hi _
    _ = .next ((notified i evoId evoData rsn s).withRes .nothing) := by rw [actNotify_eq_notified]; rfl

end Sys2Proof.Machine
end

section
/-! O45 to O47 (30_encoding.md). One idea for both directions: the fields the decoder cuts out of a word, joined again,
are the word, and joining loses nothing. The first is that encode undoes decode; with the second, a word that was joined
from fields is cut into the same fields again, so decode undoes encode. -/

namespace Sys2Proof

/-! ### Codes (R60, R61, R65, R66) -/

@[simp] theorem StateId.ofCode_code (s : StateId) : StateId.ofCode s.code = s := by cases s <;> rfl
@[simp] theorem StateId.code_ofCode (c : BitVec 3) : (StateId.ofCode c).code = c := by revert c; decide
@[simp] theorem Phase.ofCode_code (p : Phase) : Phase.ofCode p.code = p := by cases p <;> rfl
@[simp] theorem Phase.code_ofCode (c : BitVec 2) : (Phase.ofCode c).code = c := by revert c; decide
@[simp] theorem EvSel.ofCode_code (e : EvSel) : EvSel.ofCode e.code = e := by cases e <;> rfl
@[simp] theorem EvSel.code_ofCode (c : BitVec 3) : (EvSel.ofCode c).code = c := by revert c; decide
@[simp] theorem Act.ofCode_code (a : Act) : Act.ofCode a.code = a := by cases a <;> rfl
@[simp] theorem Act.code_ofCode (c : BitVec 1) : (Act.ofCode c).code = c := by revert c; decide

theorem StateId.code_injective : Function.Injective StateId.code := Function.LeftInverse.injective ofCode_code
theorem EvSel.code_injective : Function.Injective EvSel.code := Function.LeftInverse.injective ofCode_code
theorem Act.code_injective : Function.Injective Act.code := Function.LeftInverse.injective ofCode_code

/-! ### Joining fields -/

/-- A joined word determines its two parts. -/
theorem append_inj {m n : Nat} {a c : BitVec m} {b d : BitVec n} (h : a ++ b = c ++ d) : a = c ∧ b = d := by
  have hhigh := congrArg (BitVec.extractLsb' n m) h
  have hlow := congrArg (BitVec.extractLsb' 0 n) h
  rw [BitVec.extractLsb'_append_eq_left, BitVec.extractLsb'_append_eq_left] at hhigh
  rw [BitVec.extractLsb'_append_eq_right, BitVec.extractLsb'_append_eq_right] at hlow
  exact ⟨hhigh, hlow⟩

theorem ofBool_injective : Function.Injective BitVec.ofBool := by decide

/-- A flag bit as a field of width 1. -/
theorem ofBool_bit {n : Nat} (k : Nat) (w : BitVec n) : BitVec.ofBool (bit k w) = w.extractLsb' k 1 := by
  refine BitVec.eq_of_getLsbD_eq fun j hj => ?_
  obtain rfl : j = 0 := by omega
  simp [bit]

/-! ### The words of each format -/

theorem hcWord_bits (w : Word) : hcWord (bits 31 30 w) (bits 29 0 w) = w :=
  (BitVec.extractLsb'_append_extractLsb'_eq_extractLsb' rfl).trans BitVec.extractLsb'_eq_self

theorem hcWord_op_bits (op : BitVec 2) (low : BitVec 30) : bits 31 30 (hcWord op low) = op :=
  BitVec.extractLsb'_append_eq_left

theorem hcWord_low_bits (op : BitVec 2) (low : BitVec 30) : bits 29 0 (hcWord op low) = low :=
  BitVec.extractLsb'_append_eq_right

/-- The fields of SETUP make up the lower 30 bits. -/
theorem setup_bits (w : Word) : bits 29 24 w ++ bits 23 16 w ++ bits 15 0 w = bits 29 0 w := by
  simp only [bits]
  iterate 2 rw [BitVec.extractLsb'_append_extractLsb'_eq_extractLsb' (by rfl)]

/-- The fields of TICK make up the lower 30 bits. -/
theorem tick_bits (w : Word) :
    BitVec.ofBool (bit 29 w) ++ BitVec.ofBool (bit 28 w) ++ bits 27 24 w ++ bits 23 16 w ++ bits 15 8 w ++
      bits 7 0 w = bits 29 0 w := by
  simp only [bits, ofBool_bit]
  iterate 5 rw [BitVec.extractLsb'_append_extractLsb'_eq_extractLsb' (by rfl)]

theorem cwWord_bits (w : BitVec 5) : cwWord (.ofCode (bits 4 2 w)) (.ofCode (bits 1 0 w)) = w := by
  rw [cwWord, StateId.code_ofCode, Phase.code_ofCode]
  exact (BitVec.extractLsb'_append_extractLsb'_eq_extractLsb' rfl).trans BitVec.extractLsb'_eq_self

theorem bits_cwWord (s : StateId) (p : Phase) :
    bits 4 2 (cwWord s p) = s.code ∧ bits 1 0 (cwWord s p) = p.code :=
  ⟨BitVec.extractLsb'_append_eq_left, BitVec.extractLsb'_append_eq_right⟩

/-- The fields of a row make up its word. -/
theorem Row.toWord_ofWord (w : Word) : (Row.ofWord w).toWord = w := by
  simp only [Row.toWord, Row.ofWord, StateId.code_ofCode, EvSel.code_ofCode, Act.code_ofCode, bits, ofBool_bit]
  iterate 7 rw [BitVec.extractLsb'_append_extractLsb'_eq_extractLsb' (by rfl)]
  exact BitVec.extractLsb'_eq_self

theorem Row.toWord_injective : Function.Injective Row.toWord := by
  intro r r' h
  obtain ⟨h, hzero⟩ := append_inj h
  obtain ⟨h, hact⟩ := append_inj h
  obtain ⟨h, hnext⟩ := append_inj h
  obtain ⟨h, hrsn⟩ := append_inj h
  obtain ⟨h, hflag⟩ := append_inj h
  obtain ⟨h, hmask⟩ := append_inj h
  obtain ⟨hcur, hevsel⟩ := append_inj h
  cases r
  cases r'
  simp only [StateId.code_injective.eq_iff, EvSel.code_injective.eq_iff, Act.code_injective.eq_iff,
    ofBool_injective.eq_iff] at *
  simp [*]

theorem Row.ofWord_toWord (r : Row) : Row.ofWord r.toWord = r := Row.toWord_injective (Row.toWord_ofWord _)

/-! ### Encode undoes decode -/

/-- A host command word's op code is one of four, and the word is its op code and the lower 30 bits (R67). -/
theorem encode_decodeHC (w : Word) : encode (decodeHC w) = some (.hc w) := by
  have hop : ∀ op low, (bits 31 30 w).toNat = op → low = bits 29 0 w → hcWord (BitVec.ofNat 2 op) low = w := by
    rintro op low rfl rfl
    rw [BitVec.ofNat_toNat, BitVec.setWidth_eq, hcWord_bits]
  unfold decodeHC
  split <;> rename_i h
  · exact congrArg (some ∘ Code.hc) (hop 0 _ h rfl)
  · exact congrArg (some ∘ Code.hc) (hop 1 _ h (setup_bits w))
  · exact congrArg (some ∘ Code.hc) (hop 2 _ h (tick_bits w))
  · have hlt := (bits 31 30 w).isLt
    exact congrArg (some ∘ Code.hc) (hop 3 _ (by simp_all; omega) rfl)

/-- The word of a step is its control word (R62). -/
theorem encode_stepOf (s : StateId) (p : Phase) (i : Nat) (evid : Byte) :
    encode (stepOf s p i evid) = some (.cw (cwWord s p)) := by
  cases s <;> cases p <;> rfl

theorem encode_decodeAct (w : BitVec 1) (i : Nat) (evoId evoData rsn : Byte) :
    encode (decodeAct w i evoId evoData rsn) = some (.act w) := by
  unfold decodeAct
  split <;> rename_i h <;> rw [encode, ← h, Act.code_ofCode]

theorem encode_ite {w v : Word} {i j : Instr} {c : Code} (hi : w = v → encode i = some c) (hj : encode j = some c) :
    encode (if w = v then i else j) = some c := by
  split
  · next h => exact hi h
  · exact hj

theorem encode_decodeRow (w : Word) (x : ExitOut) : encode (decodeRow w x) = some (.row w) := by
  unfold decodeRow
  iterate 11 refine encode_ite (by rintro rfl; rfl) ?_
  rw [encode, Row.toWord_ofWord]

/-- Settles O47, format by format. -/
theorem encodeUndoesDecode : Obligations.EncodeUndoesDecode := by
  unfold Obligations.EncodeUndoesDecode
  intro c o
  cases c with
  | hc w => exact encode_decodeHC w
  | cw w => exact (encode_stepOf _ _ _ _).trans (by rw [cwWord_bits])
  | act w => exact encode_decodeAct w _ _ _ _
  | row w => exact encode_decodeRow w _

/-! ### Decode undoes encode -/

theorem decodeHC_of_op {w : Word} {op : BitVec 2} (h : bits 31 30 w = op) :
    decodeHC w = match op.toNat with
      | 0 => .reset (bits 29 0 w)
      | 1 => .setup (bits 29 24 w) (bits 23 16 w) (bits 15 0 w)
      | 2 => .tick (bit 29 w) (bit 28 w) (bits 27 24 w) (bits 23 16 w) (bits 15 8 w) (bits 7 0 w)
      | _ => .hcReserved (bits 29 0 w) := by
  subst h
  rfl

theorem decodeHC_reset (ig : BitVec 30) : decodeHC (hcWord 0 ig) = .reset ig :=
  (decodeHC_of_op (hcWord_op_bits 0 ig)).trans (congrArg Instr.reset (hcWord_low_bits 0 ig))

theorem decodeHC_hcReserved (ig : BitVec 30) : decodeHC (hcWord 3 ig) = .hcReserved ig :=
  (decodeHC_of_op (hcWord_op_bits 3 ig)).trans (congrArg Instr.hcReserved (hcWord_low_bits 3 ig))

theorem decodeHC_setup (ig : BitVec 6) (tickid : Byte) (qh : Half) :
    decodeHC (hcWord 1 (ig ++ tickid ++ qh)) = .setup ig tickid qh := by
  obtain ⟨h, hqh⟩ := append_inj ((setup_bits _).trans (hcWord_low_bits 1 (ig ++ tickid ++ qh)))
  obtain ⟨hig, hid⟩ := append_inj h
  refine (decodeHC_of_op (hcWord_op_bits 1 _)).trans ?_
  show Instr.setup _ _ _ = _
  rw [hig, hid, hqh]

theorem decodeHC_tick (ev rv : Bool) (ig : BitVec 4) (evid evdata aux : Byte) :
    decodeHC (hcWord 2 (BitVec.ofBool ev ++ BitVec.ofBool rv ++ ig ++ evid ++ evdata ++ aux)) =
      .tick ev rv ig evid evdata aux := by
  obtain ⟨h, haux⟩ := append_inj ((tick_bits _).trans
    (hcWord_low_bits 2 (BitVec.ofBool ev ++ BitVec.ofBool rv ++ ig ++ evid ++ evdata ++ aux)))
  obtain ⟨h, hdata⟩ := append_inj h
  obtain ⟨h, hid⟩ := append_inj h
  obtain ⟨h, hig⟩ := append_inj h
  obtain ⟨hev, hrv⟩ := append_inj h
  refine (decodeHC_of_op (hcWord_op_bits 2 _)).trans ?_
  show Instr.tick _ _ _ _ _ _ = _
  rw [ofBool_injective hev, ofBool_injective hrv, hig, hid, hdata, haux]

/-- A control word decodes to the step of its state and phase (R62). -/
theorem decodeCW_cwWord (s : StateId) (p : Phase) (i : Nat) (evid : Byte) :
    decodeCW (cwWord s p) i evid = stepOf s p i evid := by
  obtain ⟨hs, hp⟩ := bits_cwWord s p
  rw [decodeCW, hs, hp, StateId.ofCode_code, Phase.ofCode_code]

/-- A row's word that is none of the default words decodes to the generic row (R66). -/
theorem decodeRow_toWord {w : Row} (h : defaultTable.contains w.toWord = false) (x : ExitOut) :
    decodeRow w.toWord x = .row w x := by
  simp only [defaultTable, List.contains_cons, List.contains_nil, Bool.or_eq_false_iff, beq_eq_false_iff_ne] at h
  simp only [decodeRow, h, if_false, Row.ofWord_toWord]

theorem decode_stepOf {i : Nat} {evid : Byte} {s : StateId} {p : Phase} :
    decode (.cw (cwWord s p)) (stepOperands i evid) = stepOf s p i evid := decodeCW_cwWord s p i evid

/-- Settles O46. A step is `stepOf` at its control point; the other formats have one lemma each. -/
theorem decodeUndoesEncode : Obligations.DecodeUndoesEncode := by
  unfold Obligations.DecodeUndoesEncode
  intro i c hwf henc
  cases i <;> cases henc
  case reset ig => exact decodeHC_reset ig
  case setup ig tickid qh => exact decodeHC_setup ig tickid qh
  case tick ev rv ig evid evdata aux => exact decodeHC_tick ev rv ig evid evdata aux
  case hcReserved ig => exact decodeHC_hcReserved ig
  case row w x =>
    obtain ⟨-, hw⟩ := (Bool.and_eq_true_iff (x := x.wf)).mp hwf
    exact decodeRow_toWord (by simpa using hw) x
  case noStep r p j evid => cases r <;> exact decode_stepOf
  case startEntry c _ _ | relEntry c _ _ | prsEntry c _ _ | stkEntry c _ _ => cases c <;> exact decode_stepOf
  case cnfEntry d c _ _ => cases d <;> cases c <;> exact decode_stepOf
  case cnfOper d _ _ | cnfExit d _ _ => cases d <;> exact decode_stepOf
  case startOper | startExit | relOper | relExit | prsOper | prsExit | stkOper | stkExit => exact decode_stepOf
  all_goals rfl

/-! ### Words written out -/

/-- Settles O45: each word is cut by computation. -/
theorem wordsOfTheSpecDecode : Obligations.WordsOfTheSpecDecode := by
  unfold Obligations.WordsOfTheSpecDecode
  refine ⟨rfl, rfl, rfl, rfl, rfl, fun _ _ => ⟨rfl, rfl, rfl, rfl⟩, fun _ _ _ _ => ⟨rfl, rfl⟩, fun _ => rfl, rfl⟩

end Sys2Proof
end

section
/-! O44, O58 and all a step can do (44_driver_host.md R170). What each form of request runs, said once as an equation
per form; what each operation is checked against; and, from these, the cases of one step, which the invariants below are
proved by. -/

namespace Sys2Proof.Machine

open Sys2Proof

/-! ### What a request runs -/

section

variable {s : State} {rest : List Request}

theorem step_command {w : Word} (hp : s.port = .command w :: rest) :
    step s = exec (decodeHC w) { s with port := rest } := by
  simp only [step, hp]
  rfl

theorem step_control {i : Nat} {evid : Byte} (hp : s.port = .control i evid :: rest) (hi : i < s.count) :
    step s = exec (decode (.cw (controlWord (s.inst i))) (stepOperands i evid)) { s with port := rest } := by
  obtain ⟨l, hl⟩ : ∃ l, s.lanes[i]? = some l := ⟨_, List.getElem?_eq_getElem hi⟩
  simp only [step, hp, fetch, hl, State.inst, lane_of_getElem? hl]

theorem step_control_absent {i : Nat} {evid : Byte} (hp : s.port = .control i evid :: rest) (hi : s.count ≤ i) :
    step s = .fault (.noSuchInstance i) := by
  have hl : s.lanes[i]? = none := List.getElem?_eq_none hi
  simp only [step, hp, fetch, hl]

theorem step_romRow {r : Nat} {x : ExitOut} {w : Word} (hp : s.port = .romRow r x :: rest)
    (hw : s.cfg.table[r]? = some w) : step s = exec (decode (.row w) (rowOperands x)) { s with port := rest } := by
  simp only [step, hp, fetch, hw]

theorem step_romRow_absent {r : Nat} {x : ExitOut} (hp : s.port = .romRow r x :: rest)
    (hr : s.cfg.table.length ≤ r) : step s = .fault (.noSuchRow r) := by
  have hw : s.cfg.table[r]? = none := List.getElem?_eq_none hr
  simp only [step, hp, fetch, hw]

theorem step_action {a : BitVec 1} {i : Nat} {evoId evoData rsn : Byte}
    (hp : s.port = .action a i evoId evoData rsn :: rest) :
    step s = exec (decode (.act a) (rowOperands ⟨i, .noState, evoId, evoData, rsn⟩)) { s with port := rest } := by
  simp only [step, hp, fetch]

end

/-- Settles O44, form by form. -/
theorem stepRunsTheFetchedOperation : Obligations.StepRunsTheFetchedOperation := by
  unfold Obligations.StepRunsTheFetchedOperation
  intro s
  exact ⟨step_of_port_nil, fun _ _ hp => step_command hp, fun _ _ _ hp hi => step_control hp hi,
    fun _ _ _ _ hp hw => step_romRow hp hw, fun _ _ _ _ _ _ hp => step_action hp⟩

/-! ### What an operation is checked against -/

/-- An operation of an instance answers through the check of its index. -/
theorem exec_of_instanceOf {instr : Instr} {i : Nat} (h : instanceOf instr = some i) (s : State) :
    ∃ t, exec instr s = onInstance i s t := by
  cases instr <;> cases h <;> exact ⟨_, rfl⟩

/-- PULL alone is checked against a channel. -/
theorem exec_of_channelOf {instr : Instr} {c : Nat} (h : channelOf instr = some c) :
    ∃ i, instr = .pull i c := by
  cases instr <;> cases h
  exact ⟨_, rfl⟩

/-- An operation that is checked against no index always answers. -/
theorem exec_unchecked {instr : Instr} (hi : instanceOf instr = none) (hc : channelOf instr = none) (s : State) :
    ∃ t, exec instr s = .next t := by
  cases instr <;> cases hi <;> cases hc
  case tick ev rv ig evid evdata aux =>
    show ∃ t, execTick ev rv ig evid evdata aux s = .next t
    unfold execTick
    split <;> exact ⟨_, rfl⟩
  all_goals exact ⟨_, rfl⟩

/-- Settles O58: the three kinds of operation, and the two fetches that look a number up. -/
theorem absentInstanceOrChannelFaults : Obligations.AbsentInstanceOrChannelFaults := by
  unfold Obligations.AbsentInstanceOrChannelFaults
  intro s
  refine ⟨fun instr i h hi => ?absent, fun instr c h hc => ?noChannel, fun instr hi hc => ?present,
    fun i evid rest hp hi => step_control_absent hp hi, fun r x rest hp hr => step_romRow_absent hp hr⟩
  case absent =>
    obtain ⟨t, ht⟩ := exec_of_instanceOf h s
    rw [ht, onInstance, if_neg (Nat.not_lt.mpr hi)]
  case noChannel =>
    obtain ⟨i, rfl⟩ := exec_of_channelOf h
    exact if_neg (Nat.not_lt.mpr hc)
  case present =>
    cases hinst : instanceOf instr with
    | some i =>
      obtain ⟨t, ht⟩ := exec_of_instanceOf hinst s
      exact ⟨t, ht.trans (onInstance_of_lt (hi i hinst) t)⟩
    | none =>
      cases hchan : channelOf instr with
      | some c =>
        obtain ⟨i, rfl⟩ := exec_of_channelOf hchan
        exact ⟨_, if_pos (hc c hchan)⟩
      | none => exact exec_unchecked hinst hchan s

/-! ### The cases of a step -/

/-- Every command word is one of the four host commands (30_encoding.md R67). -/
theorem decodeHC_cases (w : Word) :
    (∃ ig, decodeHC w = .reset ig) ∨ (∃ ig id qh, decodeHC w = .setup ig id qh) ∨
      (∃ ev rv ig evid evdata aux, decodeHC w = .tick ev rv ig evid evdata aux) ∨
      ∃ ig, decodeHC w = .hcReserved ig := by
  unfold decodeHC
  split
  · exact .inl ⟨_, rfl⟩
  · exact .inr (.inl ⟨_, _, _, rfl⟩)
  · exact .inr (.inr (.inl ⟨_, _, _, _, _, _, rfl⟩))
  · exact .inr (.inr (.inr ⟨_, rfl⟩))

/-- All a step from `s` can do. `control` is a step of a state function run alone; `outside` is a request that is no host
command and touches no register. -/
inductive StepTo (s : State) : State → Prop where
  | idle : s.port = [] → StepTo s s
  | reset {w : Word} {rest : List Request} {ig : BitVec 30} : s.port = .command w :: rest → decodeHC w = .reset ig →
      StepTo s ((resetRegs { s with port := rest }).answer .nothing)
  | setup {w : Word} {rest : List Request} {ig : BitVec 6} {id : Byte} {qh : Half} :
      s.port = .command w :: rest → decodeHC w = .setup ig id qh →
      StepTo s ((setupRegs id qh { s with port := rest }).answer .nothing)
  | tick {w : Word} {rest : List Request} {ev rv : Bool} {ig : BitVec 4} {evid evdata aux : Byte} :
      s.port = .command w :: rest → decodeHC w = .tick ev rv ig evid evdata aux → s.drvEn = true →
      StepTo s ((acceptedTick ev rv evid { s with port := rest }).answer .nothing)
  | tickOff {w : Word} {rest : List Request} : s.port = .command w :: rest → s.drvEn = false →
      StepTo s (State.answer { s with port := rest } .nothing)
  | badCmd {w : Word} {rest : List Request} {ig : BitVec 30} :
      s.port = .command w :: rest → decodeHC w = .hcReserved ig →
      StepTo s ((State.raise { s with port := rest } none .badCmd).answer .nothing)
  | control {i : Nat} {evid : Byte} {rest : List Request} {f : Func} : s.port = .control i evid :: rest →
      i < s.count → funcOf (s.as i) = some f →
      StepTo s ((phaseAction f (s.ph i f) i evid { s with port := rest }).2.answer
        (.step (phaseAction f (s.ph i f) i evid { s with port := rest }).1))
  | outside {q : Request} {rest : List Request} {t : State} {r : Result} : s.port = q :: rest →
      (∀ w, q ≠ .command w) → OnlyOutside { s with port := rest } t → StepTo s (t.answer r)

theorem execTick_of_enabled {s : State} (h : s.drvEn = true) (ev rv : Bool) (ig : BitVec 4) (evid evdata aux : Byte) :
    exec (.tick ev rv ig evid evdata aux) s = .next ((acceptedTick ev rv evid s).answer .nothing) := if_pos h

theorem execTick_of_disabled {s : State} (h : s.drvEn = false) (ev rv : Bool) (ig : BitVec 4)
    (evid evdata aux : Byte) : exec (.tick ev rv ig evid evdata aux) s = .next (s.answer .nothing) :=
  if_neg (Bool.eq_false_iff.mp h)

/-- A row run alone touches no register. -/
theorem tryRow_onlyOutside (w : Row) (x : ExitOut) (s : State) : OnlyOutside s (tryRow w x s).2 := by
  unfold tryRow
  split
  · exact runAction_onlyOutside ..
  · exact .refl s

theorem controlPhase_of_func {x : Inst} {f : Func} (h : funcOf x.as = some f) : controlPhase x = x.ph.get f := by
  simp [controlPhase, h]

theorem decode_controlWord (x : Inst) (i : Nat) (evid : Byte) :
    decode (.cw (controlWord x)) (stepOperands i evid) = stepOf x.as (controlPhase x) i evid :=
  decodeCW_cwWord ..

theorem stepTo_of_command {s t : State} {w : Word} {rest : List Request} (hp : s.port = .command w :: rest)
    (h : exec (decodeHC w) { s with port := rest } = .next t) : StepTo s t := by
  rcases decodeHC_cases w with ⟨ig, hw⟩ | ⟨ig, id, qh, hw⟩ | ⟨ev, rv, ig, evid, evdata, aux, hw⟩ | ⟨ig, hw⟩ <;>
    rw [hw] at h
  · cases h; exact .reset hp hw
  · cases h; exact .setup hp hw
  · cases hen : s.drvEn with
    | true =>
      cases h.symm.trans (execTick_of_enabled (s := { s with port := rest }) hen ev rv ig evid evdata aux)
      exact .tick hp hw hen
    | false =>
      cases h.symm.trans (execTick_of_disabled (s := { s with port := rest }) hen ev rv ig evid evdata aux)
      exact .tickOff hp hen
  · cases h; exact .badCmd hp hw

theorem stepTo_of_control {s t : State} {i : Nat} {evid : Byte} {rest : List Request}
    (hp : s.port = .control i evid :: rest) (hi : i < s.count)
    (h : exec (decode (.cw (controlWord (s.inst i))) (stepOperands i evid)) { s with port := rest } = .next t) :
    StepTo s t := by
  rw [decode_controlWord] at h
  cases hf : funcOf (s.inst i).as with
  | none =>
    rw [exec_stepOf_of_none hf] at h
    obtain ⟨-, rfl⟩ := onInstance_next.mp h
    exact .outside hp nofun (.refl _)
  | some f =>
    rw [exec_stepOf_of_func hf, controlPhase_of_func hf] at h
    obtain ⟨-, rfl⟩ := onStep_next.mp h
    exact .control hp hi hf

/-- A step of the machine is one of the cases. -/
theorem stepTo_of_step {s t : State} (h : step s = .next t) : StepTo s t := by
  cases hp : s.port with
  | nil =>
    rw [step_of_port_nil hp] at h
    cases h
    exact .idle hp
  | cons q rest =>
    cases q with
    | command w => exact stepTo_of_command hp (by rwa [step_command hp] at h)
    | control i evid =>
      by_cases hi : i < s.count
      · exact stepTo_of_control hp hi (by rwa [step_control hp hi] at h)
      · rw [step_control_absent hp (Nat.not_lt.mp hi)] at h
        cases h
    | romRow r x =>
      cases hw : s.cfg.table[r]? with
      | none =>
        rw [step_romRow_absent hp (List.getElem?_eq_none_iff.mp hw)] at h
        cases h
      | some w =>
        rw [step_romRow hp hw, decode, exec_decodeRow] at h
        obtain ⟨-, rfl⟩ := onInstance_next.mp h
        exact .outside hp nofun (tryRow_onlyOutside _ _ _)
    | action a i evoId evoData rsn =>
      rw [step_action hp, decode, exec_decodeAct] at h
      obtain ⟨-, rfl⟩ := onInstance_next.mp h
      exact .outside hp nofun (runAction_onlyOutside _ _ _)

end Sys2Proof.Machine
end

section
/-! One turn of the driver's loop and the whole of an accepted TICK (44_driver_host.md R173, R176). A turn is told by
what it leaves in its own instance and channel and by the records it adds. A tick is told by its turns: each starts in
a state where its own button is as it was before the loop, so what the tick does to a button is what one turn does. -/

namespace Sys2Proof.Machine

open Sys2Proof

/-! ### The records of a call -/

/-- What a transition action adds to the history (43_dispatch_table.md R146, R147). -/
def actionRecords (s : State) (a : Act) (x : ExitOut) : List Record :=
  match a with
  | .nop => []
  | .notify =>
    if outwardOf s.cfg x.evoId x.rsn = 0 then []
    else .post s.tickNo x.i s.qh (outwardOf s.cfg x.evoId x.rsn) x.evoData s.nextAnswer ::
      if s.nextAnswer then [] else [.err s.tickNo (some x.i) .postFail]

/-- What a step with the effect `e` adds to the history, its sample taken from channel `c`. -/
def effectRecords (s : State) (i c : Nat) (e : Effect) : List Record :=
  (if e.pulls then [.pull s.tickNo i c (s.nextSample c)] else []) ++
    match e.err with
    | some k => [.err s.tickNo (some i) k]
    | none => []

/-- What the row search after a step with the result `r` adds to the history. -/
def exitRecords (s : State) (i : Nat) (st : StateId) (r : StepResult) : List Record :=
  match r with
  | .notDone => []
  | .done evoId evoData rsn =>
    match findRow s s.cfg.table ⟨i, st, evoId, evoData, rsn⟩ with
    | some w => actionRecords s w.act ⟨i, st, evoId, evoData, rsn⟩
    | none => [.err s.tickNo (some i) .unmatched]

/-- The effect of the step DISPATCH makes for instance `i` with the state `st`. -/
def callEffect (ev rv : Bool) (evid : Byte) (i : Nat) (st : StateId) (s : State) : Effect :=
  stepEffect s.cfg st i ev evid rv (s.nextSample (stepChannel s.cfg st i)) (s.inst i)

/-- What one DISPATCH adds to the history. -/
def callRecords (ev rv : Bool) (evid : Byte) (i : Nat) (st : StateId) (s : State) : List Record :=
  if isSentinel st then []
  else effectRecords s i (stepChannel s.cfg st i) (callEffect ev rv evid i st s) ++
    exitRecords s i st (callEffect ev rv evid i st s).res

theorem runAction_history (a : Act) (x : ExitOut) (s : State) :
    (runAction a x s).history = s.history ++ actionRecords s a x := by
  cases a with
  | nop => exact (List.append_nil _).symm
  | notify =>
    simp only [runAction, actNotify_eq_notified, notified, actionRecords]
    split
    · exact (List.append_nil _).symm
    · rfl

theorem Effect.apply_history (e : Effect) (i c : Nat) (s : State) :
    (e.apply i c s).2.history = s.history ++ effectRecords s i c e := by
  obtain ⟨r, x, pulls, err⟩ := e
  cases pulls <;> cases err <;> simp [Effect.apply, State.pulled, State.raised, effectRecords]

/-- A step leaves what the records are made of: the count, the handle, the build and the queue. -/
theorem actionRecords_apply (e : Effect) (i c : Nat) (s : State) (a : Act) (x : ExitOut) :
    actionRecords (e.apply i c s).2 a x = actionRecords s a x := by
  obtain ⟨r, x, pulls, err⟩ := e
  cases pulls <;> cases err <;> rfl

/-- A step is what it leaves in the registers and the channels, but for an error record. -/
theorem Effect.apply_onlyOutside (e : Effect) (i c : Nat) (s : State) :
    OnlyOutside (s.stepped i c e) (e.apply i c s).2 := raised_onlyOutside ..

theorem Effect.apply_cfg (e : Effect) (i c : Nat) (s : State) : (e.apply i c s).2.cfg = s.cfg :=
  (e.apply_onlyOutside i c s).cfg.trans (stepped_cfg s i c e)

theorem Effect.apply_tickid (e : Effect) (i c : Nat) (s : State) : (e.apply i c s).2.tickid = s.tickid :=
  (e.apply_onlyOutside i c s).tickid.trans (stepped_tickid s i c e)

theorem Effect.apply_tickNo (e : Effect) (i c : Nat) (s : State) : (e.apply i c s).2.tickNo = s.tickNo :=
  (e.apply_onlyOutside i c s).tickNo.trans (stepped_tickNo s i c e)

theorem searchRows_history (i : Nat) (st : StateId) (evoId evoData rsn : Byte) (s : State) :
    (searchRows s.cfg.table ⟨i, st, evoId, evoData, rsn⟩ s).2.history =
      s.history ++ exitRecords s i st (.done evoId evoData rsn) := by
  rw [searchRows_eq, exitRecords]
  cases findRow s s.cfg.table ⟨i, st, evoId, evoData, rsn⟩ with
  | none => rfl
  | some w => exact runAction_history ..

theorem exitRecords_apply (e : Effect) (i c j : Nat) (s : State) (st : StateId) (r : StepResult) :
    exitRecords (e.apply i c s).2 j st r = exitRecords s j st r := by
  unfold exitRecords
  rw [e.apply_cfg, e.apply_tickNo]
  simp only [findRow_congr (e.apply_cfg i c s) (e.apply_tickid i c s), actionRecords_apply]

/-- DISPATCH adds its records at the end of the history and changes no record. -/
theorem dispatchInst_history {i : Nat} {s : State} (hi : i < s.count) (st : StateId) (ev : Bool) (evid : Byte)
    (rv : Bool) :
    (dispatchInst i st ev evid rv s).2.history = s.history ++ callRecords ev rv evid i st s := by
  unfold dispatchInst callRecords
  split
  · exact (List.append_nil _).symm
  · rw [stepInst_eq st i ev evid rv s hi, ← callEffect]
    generalize callEffect ev rv evid i st s = e
    rw [← List.append_assoc, ← e.apply_history, ← exitRecords_apply e i (stepChannel s.cfg st i)]
    unfold afterStep
    show (match e.res with | .notDone => _ | .done evoId evoData rsn => _ : StateId × State).2.history = _
    cases e.res with
    | notDone => exact (List.append_nil _).symm
    | done evoId evoData rsn => exact searchRows_history ..

/-! ### One turn -/

/-- One turn of the driver's loop, for instance `i`. -/
def turn (ev rv : Bool) (evid : Byte) (i : Nat) (s : State) : State := (driveOne ev rv evid i (false, s)).2

/-- The fail bit plays no part in what a turn does to the state. -/
theorem driveOne_snd (ev rv : Bool) (evid : Byte) (i : Nat) (f : Bool) (s : State) :
    (driveOne ev rv evid i (f, s)).2 = turn ev rv evid i s := rfl

/-- The registers of instance `i` after its turn with the sample `b`, where they were `x` before. -/
def turnInst (ev rv : Bool) (evid : Byte) (i : Nat) (s : State) (b : Bool) (x : Inst) : Inst :=
  if isSentinel x.as then { x with as := .noState }
  else
    { (stepEffect s.cfg x.as i ev evid rv b x).inst with
      as := nextState s i x.as (stepEffect s.cfg x.as i ev evid rv b x).res }

theorem turnInst_of_sentinel {x : Inst} (h : isSentinel x.as = true) (ev rv : Bool) (evid : Byte) (i : Nat) (s : State)
    (b : Bool) : turnInst ev rv evid i s b x = { x with as := .noState } := if_pos h

theorem turnInst_of_state {x : Inst} (h : isSentinel x.as = false) (ev rv : Bool) (evid : Byte) (i : Nat) (s : State)
    (b : Bool) : turnInst ev rv evid i s b x =
      { (stepEffect s.cfg x.as i ev evid rv b x).inst with
        as := nextState s i x.as (stepEffect s.cfg x.as i ev evid rv b x).res } := if_neg (by simp [h])

/-- The next state depends on the build and `TICKID` alone. -/
theorem nextState_congr {s t : State} (hc : t.cfg = s.cfg) (ht : t.tickid = s.tickid) (i : Nat) (st : StateId)
    (r : StepResult) : nextState t i st r = nextState s i st r := by
  cases r with
  | notDone => rfl
  | done evoId evoData rsn => simp only [nextState, hc, findRow_congr hc ht]

theorem turnInst_congr {s t : State} (hc : t.cfg = s.cfg) (ht : t.tickid = s.tickid) (ev rv : Bool) (evid : Byte)
    (i : Nat) (b : Bool) (x : Inst) : turnInst ev rv evid i t b x = turnInst ev rv evid i s b x := by
  unfold turnInst
  rw [hc, nextState_congr hc ht]

theorem stepChannel_own {c : Config} (hch : c.stuckCh0 = false) (st : StateId) (i : Nat) : stepChannel c st i = i := by
  unfold stepChannel
  split <;> simp [sampleChannel, hch]

section

variable {i : Nat} {s : State} (hi : i < s.count) (ev rv : Bool) (evid : Byte)
include hi

theorem turn_inst : (turn ev rv evid i s).inst i =
    turnInst ev rv evid i s (s.nextSample (stepChannel s.cfg (s.as i) i)) (s.inst i) := by
  cases h : isSentinel (s.as i) with
  | true =>
    rw [turn, driveOne_sentinel h, turnInst_of_sentinel h]
    exact mapInst_inst_self s i _ hi
  | false =>
    obtain ⟨-, hout⟩ := driveOne_spec (f := false) h hi ev rv evid _ _ rfl rfl
    rw [turn, hout.inst, stepped_inst_self _ _ _ _ hi, turnInst_of_state h]
    rfl

/-- A turn leaves the other instances and the global registers alone. -/
theorem turn_frame : (∀ j, i ≠ j → (turn ev rv evid i s).inst j = s.inst j) ∧
    (turn ev rv evid i s).cfg = s.cfg ∧ (turn ev rv evid i s).tickid = s.tickid ∧
    (turn ev rv evid i s).qh = s.qh ∧ (turn ev rv evid i s).tickNo = s.tickNo ∧
    (turn ev rv evid i s).count = s.count := by
  obtain ⟨-, hother, hcfg, hid, -, hqh, hno, -, hcount⟩ := driveOne_inst (f := false) hi ev rv evid
  exact ⟨hother, hcfg, hid, hqh, hno, hcount⟩

theorem turn_history : (turn ev rv evid i s).history = s.history ++ callRecords ev rv evid i (s.as i) s :=
  dispatchInst_history hi (s.as i) ev evid rv

/-- Where Stuck samples its own channel, a turn consumes no sample of another channel, and one of its own where its step
pulls. -/
theorem turn_chan (hch : s.cfg.stuckCh0 = false) (c : Nat) : (turn ev rv evid i s).chan c =
    if i = c ∧ isSentinel (s.as i) = false ∧ (callEffect ev rv evid i (s.as i) s).pulls = true then
      { s.chan c with pulled := (s.chan c).pulled + 1 }
    else s.chan c := by
  cases h : isSentinel (s.as i) with
  | true =>
    rw [turn, driveOne_sentinel h]
    simp [State.setAs]
  | false =>
    obtain ⟨-, hout⟩ := driveOne_spec (f := false) h hi ev rv evid (callEffect ev rv evid i (s.as i) s) _ rfl rfl
    rw [turn, hout.chan, State.stepped, withInst_chan, State.pulled, stepChannel_own hch]
    by_cases hp : (callEffect ev rv evid i (s.as i) s).pulls = true
    · by_cases hic : i = c
      · subst hic; simp [hp, pullBit_chan_self _ _ _ hi]
      · simp [hp, hic, pullBit_chan_ne i s hic]
    · simp [hp]

end

/-! ### The loop -/

/-- `u` is a state in which the loop that starts in `s` can come to instance `i`: its button is still as it was. -/
structure TurnStart (s : State) (i : Nat) (u : State) : Prop where
  cfg : u.cfg = s.cfg
  tickid : u.tickid = s.tickid
  qh : u.qh = s.qh
  tickNo : u.tickNo = s.tickNo
  count : u.count = s.count
  inst : u.inst i = s.inst i
  chan : s.cfg.stuckCh0 = false → u.chan i = s.chan i

namespace TurnStart

theorem refl (s : State) (i : Nat) : TurnStart s i s := ⟨rfl, rfl, rfl, rfl, rfl, rfl, fun _ => rfl⟩

/-- A turn of another instance does not change what a turn starts from. -/
theorem after_turn {s : State} {i j : Nat} (hi : i < s.count) (hij : i ≠ j) (ev rv : Bool) (evid : Byte) :
    TurnStart s j (turn ev rv evid i s) := by
  obtain ⟨hother, hcfg, hid, hqh, hno, hcount⟩ := turn_frame hi ev rv evid
  exact ⟨hcfg, hid, hqh, hno, hcount, hother j hij, fun hch => by simp [turn_chan hi ev rv evid hch, hij]⟩

theorem trans {s t u : State} {i : Nat} (h : TurnStart s i t) (k : TurnStart t i u) : TurnStart s i u :=
  ⟨k.cfg.trans h.cfg, k.tickid.trans h.tickid, k.qh.trans h.qh, k.tickNo.trans h.tickNo, k.count.trans h.count,
    k.inst.trans h.inst, fun hch => (k.chan (by rw [h.cfg, hch])).trans (h.chan hch)⟩

end TurnStart

/-- The loop, told by its turns: `u i` is the state in which it comes to instance `i`. -/
structure LoopTurns (ev rv : Bool) (evid : Byte) (k : Nat) (s t : State) (u : Nat → State) : Prop where
  starts : ∀ i < k, TurnStart s i (u i)
  inst : ∀ i < k, t.inst i = (turn ev rv evid i (u i)).inst i
  chan : s.cfg.stuckCh0 = false → ∀ i < k, t.chan i = (turn ev rv evid i (u i)).chan i
  history : t.history =
    s.history ++ (List.range k).reverse.flatMap fun i => callRecords ev rv evid i ((u i).as i) (u i)

/-- The loop over the instances below `k` consumes no sample of a channel from `k` on. -/
theorem driveAll_chan (ev rv : Bool) (evid : Byte) : ∀ (k : Nat) (f : Bool) (s : State), k ≤ s.count →
    s.cfg.stuckCh0 = false → ∀ c, k ≤ c → (driveAll ev rv evid k (f, s)).2.chan c = s.chan c := by
  intro k
  induction k with
  | zero => exact fun _ _ _ _ _ _ => rfl
  | succ k ih =>
    intro f s hk hch c hc
    obtain ⟨-, hcfg, -, -, -, hcount⟩ := turn_frame (i := k) (s := s) hk ev rv evid
    rw [driveAll, ← Prod.eta (driveOne ev rv evid k (f, s)), driveOne_snd,
      ih _ _ (by omega) (by rw [hcfg, hch]) c (by omega), turn_chan hk ev rv evid hch]
    simp [show k ≠ c by omega]

theorem driveAll_turns (ev rv : Bool) (evid : Byte) : ∀ (k : Nat) (f : Bool) (s : State), k ≤ s.count →
    ∃ u, LoopTurns ev rv evid k s (driveAll ev rv evid k (f, s)).2 u := by
  intro k
  induction k with
  | zero =>
    intro f s _
    exact ⟨fun _ => s, nofun, nofun, nofun, (List.append_nil _).symm⟩
  | succ k ih =>
    intro f s hk
    rw [driveAll, ← Prod.eta (driveOne ev rv evid k (f, s)), driveOne_snd]
    generalize (driveOne ev rv evid k (f, s)).1 = g
    obtain ⟨-, hcfg, -, -, -, hcount⟩ := turn_frame (i := k) (s := s) hk ev rv evid
    have hkt : k ≤ (turn ev rv evid k s).count := by omega
    obtain ⟨-, hkeep, -⟩ := driveAll_frame ev rv evid k g (turn ev rv evid k s) hkt
    obtain ⟨u, hu⟩ := ih g (turn ev rv evid k s) hkt
    have hself : Function.update u k s k = s := Function.update_self ..
    have hne : ∀ i < k, Function.update u k s i = u i := fun i hi => Function.update_of_ne (by omega) ..
    refine ⟨Function.update u k s, ?_, ?_, ?_, ?_⟩
    · intro i hi
      rcases Nat.lt_succ_iff_lt_or_eq.mp hi with hi | rfl
      · rw [hne i hi]
        exact (TurnStart.after_turn hk (by omega) ev rv evid).trans (hu.starts i hi)
      · rw [hself]
        exact .refl s i
    · intro i hi
      rcases Nat.lt_succ_iff_lt_or_eq.mp hi with hi | rfl
      · rw [hne i hi, hu.inst i hi]
      · rw [hself, hkeep i (Nat.le_refl i)]
    · intro hch i hi
      have hch' : (turn ev rv evid k s).cfg.stuckCh0 = false := by rw [hcfg, hch]
      rcases Nat.lt_succ_iff_lt_or_eq.mp hi with hi | rfl
      · rw [hne i hi, hu.chan hch' i hi]
      · rw [hself, driveAll_chan ev rv evid i g _ hkt hch' i (Nat.le_refl i)]
    · rw [hu.history, turn_history hk, List.range_succ, List.reverse_append, List.reverse_singleton,
        List.singleton_append, List.flatMap_cons, hself, List.append_assoc]
      have hsame : ∀ i ∈ (List.range k).reverse, callRecords ev rv evid i ((u i).as i) (u i) =
          callRecords ev rv evid i ((Function.update u k s i).as i) (Function.update u k s i) := by
        intro i hi
        rw [hne i (by simpa using hi)]
      rw [List.flatMap_congr hsame]

/-! ### The accepted TICK -/

/-- The state an accepted TICK starts its loop in: the tick counted, the timers advanced (44_driver_host.md R175). -/
def tickStart (s : State) : State := timerAdvance { s with tickNo := s.tickNo + 1 }

/-- The registers of an instance one tick later (41_timer.md R102). -/
def Inst.later (x : Inst) : Inst := { x with tdb := sat16Inc x.tdb, tstk := sat16Inc x.tstk }

theorem tickStart_inst {s : State} {i : Nat} (hi : i < s.count) : (tickStart s).inst i = (s.inst i).later :=
  timerAdvance_inst _ i hi

theorem timerAdvance_chan (s : State) (c : Nat) : (timerAdvance s).chan c = s.chan c := by
  simp only [State.chan, lane_eq, timerAdvance_lanes, List.getElem?_map]
  cases s.lanes[c]? <;> rfl

@[simp] theorem tickStart_chan (s : State) (c : Nat) : (tickStart s).chan c = s.chan c := timerAdvance_chan _ c
@[simp] theorem tickStart_cfg (s : State) : (tickStart s).cfg = s.cfg := rfl
@[simp] theorem tickStart_tickid (s : State) : (tickStart s).tickid = s.tickid := rfl
@[simp] theorem tickStart_qh (s : State) : (tickStart s).qh = s.qh := rfl
@[simp] theorem tickStart_tickNo (s : State) : (tickStart s).tickNo = s.tickNo + 1 := rfl
@[simp] theorem tickStart_history (s : State) : (tickStart s).history = s.history := rfl
@[simp] theorem tickStart_port (s : State) : (tickStart s).port = s.port := rfl
@[simp] theorem tickStart_count (s : State) : (tickStart s).count = s.count := timerAdvance_count _

theorem mem_descending {s : State} {i : Nat} : i ∈ s.descending ↔ i < s.count := by
  simp [State.descending]

/-- The end of a tick writes `DRV_EN` and, where it halts, one record (44_driver_host.md R178). -/
theorem endTick_eq (f : Bool) (s : State) :
    endTick (f, s) = { s with drvEn := !f }.withRecords (if f then [.halt s.tickNo] else []) := by
  cases f
  · simp [endTick, State.rearm, State.withRecords]
  · rfl

/-- All an accepted TICK from `s` does; `u i` is the state in which its loop comes to instance `i`. -/
structure TickTurns (ev rv : Bool) (evid : Byte) (s t : State) (u : Nat → State) : Prop where
  starts : ∀ i < s.count, TurnStart (tickStart s) i (u i)
  inst : ∀ i < s.count, t.inst i = (turn ev rv evid i (u i)).inst i
  chan : s.cfg.stuckCh0 = false → ∀ i < s.count, t.chan i = (turn ev rv evid i (u i)).chan i
  history : t.history =
    s.history ++ s.descending.flatMap (fun i => callRecords ev rv evid i ((u i).as i) (u i)) ++
      if t.drvEn then [] else [.halt (s.tickNo + 1)]
  drvEn : t.drvEn = false ↔ s.cfg.failPolicy = .globalHalt ∧ t.someDead
  cfg : t.cfg = s.cfg
  tickid : t.tickid = s.tickid
  qh : t.qh = s.qh
  tickNo : t.tickNo = s.tickNo + 1
  port : t.port = s.port
  count : t.count = s.count

theorem acceptedTick_turns (ev rv : Bool) (evid : Byte) (s : State) :
    ∃ u, TickTurns ev rv evid s (acceptedTick ev rv evid s) u := by
  have hk : s.count ≤ (tickStart s).count := Nat.le_of_eq (tickStart_count s).symm
  obtain ⟨hfail, -, hcfg, hid, -, hqh, hno, hport, hcount⟩ := driveAll_frame ev rv evid s.count false (tickStart s) hk
  obtain ⟨u, hu⟩ := driveAll_turns ev rv evid s.count false (tickStart s) hk
  have heq : acceptedTick ev rv evid s = endTick (driveAll ev rv evid s.count (false, tickStart s)) := rfl
  rw [heq]
  generalize driveAll ev rv evid s.count (false, tickStart s) = r at *
  obtain ⟨f, t⟩ := r
  rw [endTick_eq]
  refine ⟨u, hu.starts, hu.inst, hu.chan, ?_, ?_, hcfg, hid, hqh, hno, hport, hcount.trans (tickStart_count s)⟩
  · have hhist : t.history = _ := hu.history
    have hticks : t.tickNo = s.tickNo + 1 := hno
    cases f <;> simp [hhist, hticks, State.descending]
  · have hcount : t.count = s.count := hcount.trans (tickStart_count s)
    have hdead : State.someDead ({ t with drvEn := !f }.withRecords (if f then [.halt t.tickNo] else [])) ↔
        ∃ i < s.count, t.as i = .noState := by rw [← hcount]; rfl
    rw [hdead]
    simpa using hfail

namespace TickTurns

variable {ev rv : Bool} {evid : Byte} {s t : State} {u : Nat → State} (hu : TickTurns ev rv evid s t u) {i : Nat}
  (hi : i < s.count)
include hu hi

theorem present : i < (u i).count := by
  rw [(hu.starts i hi).count, tickStart_count]
  exact hi

theorem start_inst : (u i).inst i = (s.inst i).later := (hu.starts i hi).inst.trans (tickStart_inst hi)

theorem start_as : (u i).as i = s.as i := (congrArg Inst.as (hu.start_inst hi)).trans rfl

/-- What a tick does to an instance: its timers advance, then one turn. -/
theorem inst_eq : t.inst i =
    Machine.turnInst ev rv evid i s ((u i).nextSample (stepChannel s.cfg (s.as i) i)) (s.inst i).later := by
  have hcfg : (u i).cfg = s.cfg := (hu.starts i hi).cfg
  have hid : (u i).tickid = s.tickid := (hu.starts i hi).tickid
  rw [hu.inst i hi, turn_inst (hu.present hi), hu.start_inst hi, hu.start_as hi, turnInst_congr hcfg hid, hcfg]

/-- A tick leaves the sentinel where it is (43_dispatch_table.md R145). -/
theorem dead (hdead : s.as i = .noState) : t.as i = .noState := by
  have hsent : isSentinel (s.inst i).later.as = true := by rw [show (s.inst i).later.as = .noState from hdead]; rfl
  rw [State.as, hu.inst_eq hi, turnInst_of_sentinel hsent]

end TickTurns

end Sys2Proof.Machine
end

section
/-! O20, O48 to O51: what every step keeps. A phase action moves its own phase along the life cycle and no other, so
legal registers stay legal; a turn that leaves its state leaves every phase idle, so any row may be followed. The cases
of a step then give the invariant, the ROM and build, and the sentinel. -/

namespace Sys2Proof.Machine

open Sys2Proof

/-! ### Phases under a phase action (42_state_functions.md R111) -/

section

variable (c : Config) (f : Func) (i : Nat) (evid : Byte) (b : Bool) (x : Inst)

theorem actionEffect_entry {p : Phase} (hp : p = .uninit ∨ p = .finished) :
    (actionEffect c f p i evid b x).res = .notDone ∧
      (actionEffect c f p i evid b x).inst.ph = x.ph.set f (if f = .start then .exit else .oper) := by
  rcases hp with rfl | rfl <;> cases f <;> exact ⟨rfl, rfl⟩

theorem actionEffect_exit :
    (∃ evoId evoData rsn, (actionEffect c f .exit i evid b x).res = .done evoId evoData rsn) ∧
      (actionEffect c f .exit i evid b x).inst.ph = x.ph.set f .finished := by
  cases f <;> exact ⟨⟨_, _, _, rfl⟩, rfl⟩

theorem actionEffect_oper :
    (actionEffect c f .oper i evid b x).res = .notDone ∧
      ((actionEffect c f .oper i evid b x).inst.ph = x.ph ∨
        (actionEffect c f .oper i evid b x).inst.ph = x.ph.set f .exit) := by
  cases f with
  | start => exact ⟨rfl, .inr rfl⟩
  | released => cases b <;> simp [actionEffect]
  | confirm =>
    simp only [actionEffect, confirmEffect]
    split
    · split <;> simp
    · simp
  | pressed =>
    simp only [actionEffect]
    split
    · simp
    · split <;> simp
  | stuck => cases b <;> simp [actionEffect]

/-- A phase action never writes `AS`. -/
theorem actionEffect_as (p : Phase) : (actionEffect c f p i evid b x).inst.as = x.as := by
  cases p with
  | oper =>
    cases f with
    | start => rfl
    | released => cases b <;> rfl
    | confirm => simp only [actionEffect, confirmEffect]; (repeat' split) <;> rfl
    | pressed => simp only [actionEffect]; (repeat' split) <;> rfl
    | stuck => cases b <;> rfl
  | _ => cases f <;> rfl

/-- The phase of the action's own function moves along the life cycle. -/
theorem actionEffect_phaseMove :
    PhaseMove f (x.ph.get f) ((actionEffect c f (x.ph.get f) i evid b x).inst.ph.get f) := by
  have hentry : ∀ p, p = .uninit ∨ p = .finished →
      PhaseMove f p ((actionEffect c f p i evid b x).inst.ph.get f) := by
    intro p hp
    obtain ⟨-, hph⟩ := actionEffect_entry c f i evid b x hp
    rw [hph, phases_get_set, if_pos rfl]
    split
    · next hf => exact .enterStart p hp hf
    · next hf => exact .enter p hp hf
  cases hp : x.ph.get f with
  | uninit => exact hentry _ (.inl rfl)
  | finished => exact hentry _ (.inr rfl)
  | exit =>
    obtain ⟨-, hph⟩ := actionEffect_exit c f i evid b x
    rw [hph, phases_get_set, if_pos rfl]
    exact .leave
  | oper =>
    obtain ⟨-, hph | hph⟩ := actionEffect_oper c f i evid b x
    · rw [hph, hp]
      exact .stay _
    · rw [hph, phases_get_set, if_pos rfl]
      exact .fire

/-- The phases of the other functions stay. -/
theorem actionEffect_otherPhase (p : Phase) {g : Func} (hg : f ≠ g) :
    (actionEffect c f p i evid b x).inst.ph.get g = x.ph.get g := by
  have hset : ∀ v, (x.ph.set f v).get g = x.ph.get g := fun v => by rw [phases_get_set, if_neg hg]
  cases p with
  | uninit => rw [(actionEffect_entry c f i evid b x (.inl rfl)).2, hset]
  | finished => rw [(actionEffect_entry c f i evid b x (.inr rfl)).2, hset]
  | exit => rw [(actionEffect_exit c f i evid b x).2, hset]
  | oper =>
    obtain ⟨-, hph | hph⟩ := actionEffect_oper c f i evid b x
    · rw [hph]
    · rw [hph, hset]

end

/-- STEP never writes `AS`. -/
theorem stepEffect_as (c : Config) (st : StateId) (i : Nat) (ev : Bool) (evid : Byte) (rv b : Bool) (x : Inst) :
    (stepEffect c st i ev evid rv b x).inst.as = x.as := by
  unfold stepEffect
  split
  · rfl
  · split
    · rfl
    · exact actionEffect_as ..

theorem stepEffect_phase (c : Config) (st : StateId) (i : Nat) (ev : Bool) (evid : Byte) (rv b : Bool) (x : Inst)
    (f : Func) :
    (funcOf st ≠ some f → (stepEffect c st i ev evid rv b x).inst.ph.get f = x.ph.get f) ∧
      PhaseMove f (x.ph.get f) ((stepEffect c st i ev evid rv b x).inst.ph.get f) := by
  unfold stepEffect
  split
  · exact ⟨fun _ => rfl, .stay _⟩
  · next g hg =>
    split
    · exact ⟨fun _ => rfl, .stay _⟩
    · by_cases hfg : g = f
      · subst hfg
        exact ⟨fun h => absurd hg h, actionEffect_phaseMove ..⟩
      · have hsame := actionEffect_otherPhase c g i evid b x (x.ph.get g) hfg
        rw [hsame]
        exact ⟨fun _ => rfl, .stay _⟩

theorem Effect.apply_inst (e : Effect) {i : Nat} (c : Nat) {s : State} (hi : i < s.count) :
    (e.apply i c s).2.inst i = e.inst :=
  ((e.apply_onlyOutside i c s).inst i).trans (stepped_inst_self s i c e hi)

/-- Settles O20: STEP is its effect, whose phases move as R111 says. -/
theorem stepMovesOnePhaseAlongTheLifeCycle : Obligations.StepMovesOnePhaseAlongTheLifeCycle := by
  unfold Obligations.StepMovesOnePhaseAlongTheLifeCycle
  intro st i ev evid rv s t hexec hi
  obtain ⟨-, rfl⟩ := onStep_next.mp (show onStep i s (stepInst st i ev evid rv s) = .next t from hexec)
  rw [stepInst_eq st i ev evid rv s hi]
  simp only [State.as, State.ph, answer_inst, Effect.apply_inst _ _ hi]
  exact ⟨stepEffect_as .., stepEffect_phase _ _ _ _ _ _ _ _⟩

/-! ### Legal registers (10_state.md R15, 42_state_functions.md R113, R120, R123) -/

/-- With every phase idle any state but code 7 may be active. -/
theorem legal_of_idle {x : Inst} (hknown : x.as ≠ .reserved7)
    (hidle : ∀ f, x.ph.get f = .uninit ∨ x.ph.get f = .finished) : x.Legal := by
  have hne : ∀ f p, p = .oper ∨ p = .exit → x.ph.get f ≠ p := by
    rintro f p hp rfl
    rcases hidle f with h | h <;> simp [h] at hp
  exact ⟨hknown, fun f _ => hidle f, hne .start .oper (.inl rfl),
    fun _ h => absurd h (hne .confirm .exit (.inr rfl)), fun _ h => absurd h (hne .pressed .exit (.inr rfl))⟩

theorem legal_reset : Inst.reset.Legal :=
  legal_of_idle (show StateId.start ≠ .reserved7 by decide) fun f => .inl (by cases f <;> rfl)

theorem Inst.Legal.later {x : Inst} (h : x.Legal) : x.later.Legal := ⟨h.known, h.idle, h.start, h.reasons⟩

/-- CNF.OPER latches a legal reason where it fires. -/
theorem confirmEffect_reason (c : Config) (b : Bool) {x : Inst} (hp : x.ph.confirm = .oper)
    (hexit : (confirmEffect c b x).inst.ph.confirm = .exit) :
    ((confirmEffect c b x).inst.xr = rsnDebounced ∧
        ((confirmEffect c b x).inst.acc = 0x00 ∨ (confirmEffect c b x).inst.acc = 0xFF)) ∨
      (confirmEffect c b x).inst.xr = rsnTimeout := by
  by_cases hq : shifted x.acc b = 0x00 ∨ shifted x.acc b = 0xFF
  · rw [confirmEffect_of_qualified hq]
    exact .inl ⟨rfl, hq⟩
  · rcases Nat.lt_or_ge x.tdb.toNat c.debounceTicks.toNat with ht | ht
    · rw [confirmEffect_of_waiting hq ht] at hexit
      simp [hp] at hexit
    · rw [confirmEffect_of_expired hq ht]
      exact .inr rfl

/-- PRS.OPER latches a legal reason where it fires. -/
theorem pressedOper_reason (c : Config) (i : Nat) (evid : Byte) (b : Bool) {x : Inst} (hp : x.ph.pressed = .oper)
    (hexit : (actionEffect c .pressed .oper i evid b x).inst.ph.pressed = .exit) :
    (actionEffect c .pressed .oper i evid b x).inst.xr = rsnTwitch ∨
      (actionEffect c .pressed .oper i evid b x).inst.xr = rsnTimeout := by
  simp only [actionEffect] at hexit ⊢
  split
  · exact .inl rfl
  · next hb =>
    rw [if_neg hb] at hexit
    split
    · exact .inr rfl
    · next ht => simp [ht, hp] at hexit

/-- A phase that is about to exit after a step was in `P_OPER` before it, but for Start's. -/
theorem PhaseMove.from_oper {f : Func} {p q : Phase} (h : PhaseMove f p q) (hf : f ≠ .start) (hq : q = .exit)
    (hp : p ≠ .exit) : p = .oper := by
  cases h with
  | stay => exact absurd hq hp
  | enter => cases hq
  | enterStart _ _ hs => exact absurd hs hf
  | fire => rfl
  | leave => cases hq

theorem actionEffect_exit_phase (c : Config) (f : Func) (i : Nat) (evid : Byte) (b : Bool) (x : Inst) :
    (actionEffect c f .exit i evid b x).inst.ph.get f = .finished := by
  rw [(actionEffect_exit c f i evid b x).2, phases_get_set, if_pos rfl]

/-- Where the action's own phase is about to exit, Start's aside, it was in `P_OPER`. -/
theorem actionEffect_was_oper {c : Config} {f : Func} {i : Nat} {evid : Byte} {b : Bool} {x : Inst} (hf : f ≠ .start)
    (hexit : (actionEffect c f (x.ph.get f) i evid b x).inst.ph.get f = .exit) : x.ph.get f = .oper := by
  refine (actionEffect_phaseMove c f i evid b x).from_oper hf hexit fun hp => ?_
  rw [hp, actionEffect_exit_phase] at hexit
  cases hexit

/-- The phase action of the active state keeps the registers legal. -/
theorem actionEffect_legal {x : Inst} (h : x.Legal) {f : Func} (hf : funcOf x.as = some f) (c : Config) (i : Nat)
    (evid : Byte) (b : Bool) : (actionEffect c f (x.ph.get f) i evid b x).inst.Legal := by
  have has := actionEffect_as c f i evid b x (x.ph.get f)
  refine ⟨by rw [has]; exact h.known, ?idle, ?start, ?confirm, ?pressed⟩
  case idle =>
    intro g hg
    rw [has, hf] at hg
    rw [actionEffect_otherPhase c f i evid b x _ (by simpa using hg)]
    exact h.idle g (by rw [hf]; exact hg)
  case start =>
    show Phases.get _ .start ≠ .oper
    have hstart : x.ph.get .start ≠ .oper := h.start
    by_cases hfs : f = .start
    · subst hfs
      have hmove := actionEffect_phaseMove c .start i evid b x
      intro hoper
      rw [hoper] at hmove
      generalize hp : x.ph.get .start = p at hmove
      cases hmove with
      | stay => exact hstart hp
      | enter _ _ hne => exact hne rfl
    · rw [actionEffect_otherPhase c f i evid b x _ hfs]
      exact hstart
  case confirm =>
    intro hfunc hexit
    rw [has, hf] at hfunc
    cases hfunc
    have hoper := actionEffect_was_oper (f := .confirm) (by decide) hexit
    rw [hoper] at hexit ⊢
    exact confirmEffect_reason c b hoper hexit
  case pressed =>
    intro hst hexit
    rw [has] at hst
    rw [hst] at hf
    cases hf
    have hoper := actionEffect_was_oper (f := .pressed) (by decide) hexit
    rw [hoper] at hexit ⊢
    exact pressedOper_reason c i evid b hoper hexit

/-- A matched row never gives code 7 (30_encoding.md R68). -/
theorem rowTarget_ne_reserved7 (w : Row) : rowTarget w ≠ .reserved7 := by
  unfold rowTarget
  split
  · decide
  · next h => exact fun hn => h (by rw [hn]; rfl)

theorem nextState_done_ne_reserved7 (s : State) (i : Nat) (st : StateId) (evoId evoData rsn : Byte) :
    nextState s i st (.done evoId evoData rsn) ≠ .reserved7 := by
  simp only [nextState]
  split
  · exact rowTarget_ne_reserved7 _
  · decide

theorem isSentinel_iff {st : StateId} : isSentinel st = true ↔ st = .noState ∨ st = .reserved7 := by
  cases st <;> decide

theorem isSentinel_eq_false_iff {st : StateId} : isSentinel st = false ↔ st ≠ .noState ∧ st ≠ .reserved7 := by
  cases st <;> decide

theorem funcOf_of_not_sentinel {st : StateId} (h : isSentinel st = false) : ∃ f, funcOf st = some f := by
  rw [← Option.isSome_iff_exists]
  revert h
  cases st <;> decide

theorem stepEffect_of_func {st : StateId} {f : Func} (hf : funcOf st = some f) (c : Config) (i : Nat) {ev rv : Bool}
    (hm : malformedCall ev rv = false) (evid : Byte) (b : Bool) (x : Inst) :
    stepEffect c st i ev evid rv b x = actionEffect c f (x.ph.get f) i evid b x := by
  simp [stepEffect, hf, hm]

theorem stepEffect_of_malformed {st : StateId} {f : Func} (hf : funcOf st = some f) (c : Config) (i : Nat)
    {ev rv : Bool} (hm : malformedCall ev rv = true) (evid : Byte) (b : Bool) (x : Inst) :
    stepEffect c st i ev evid rv b x = ⟨.notDone, x, false, some .malformed⟩ := by
  simp [stepEffect, hf, hm]

theorem actionEffect_notDone (c : Config) (f : Func) {p : Phase} (hp : p ≠ .exit) (i : Nat) (evid : Byte) (b : Bool)
    (x : Inst) : (actionEffect c f p i evid b x).res = .notDone := by
  cases p with
  | uninit => exact (actionEffect_entry _ _ _ _ _ _ (.inl rfl)).1
  | finished => exact (actionEffect_entry _ _ _ _ _ _ (.inr rfl)).1
  | oper => exact (actionEffect_oper ..).1
  | exit => exact absurd rfl hp

section

variable {x : Inst} {f : Func} (hf : funcOf x.as = some f) {ev rv : Bool} (evid : Byte) (i : Nat) (s : State) (b : Bool)
include hf

theorem turnInst_eq (ev rv : Bool) : turnInst ev rv evid i s b x = { (stepEffect s.cfg x.as i ev evid rv b x).inst with
    as := nextState s i x.as (stepEffect s.cfg x.as i ev evid rv b x).res } := by
  refine turnInst_of_state ?_ ev rv evid i s b
  revert hf
  cases x.as <;> simp [funcOf, isSentinel]

/-- A malformed call leaves the registers alone. -/
theorem turnInst_malformed (hm : malformedCall ev rv = true) : turnInst ev rv evid i s b x = x := by
  rw [turnInst_eq hf, stepEffect_of_malformed hf _ _ hm]
  rfl

/-- Where the step is not done the turn is the phase action. -/
theorem turnInst_stay (hm : malformedCall ev rv = false) (hp : x.ph.get f ≠ .exit) :
    turnInst ev rv evid i s b x = (actionEffect s.cfg f (x.ph.get f) i evid b x).inst := by
  rw [turnInst_eq hf, stepEffect_of_func hf _ _ hm, actionEffect_notDone _ _ hp, nextState, ← actionEffect_as]

/-- Where the step is done the phase is finished and the next state is stored. -/
theorem turnInst_leave (hm : malformedCall ev rv = false) (hp : x.ph.get f = .exit) :
    turnInst ev rv evid i s b x = { (actionEffect s.cfg f .exit i evid b x).inst with
      as := nextState s i x.as (actionEffect s.cfg f .exit i evid b x).res } := by
  rw [turnInst_eq hf, stepEffect_of_func hf _ _ hm, hp]

end

/-- After an exit every phase is idle. -/
theorem actionEffect_exit_idle {x : Inst} (h : x.Legal) {f : Func} (hf : funcOf x.as = some f) (c : Config) (i : Nat)
    (evid : Byte) (b : Bool) (g : Func) : (actionEffect c f .exit i evid b x).inst.ph.get g = .uninit ∨
      (actionEffect c f .exit i evid b x).inst.ph.get g = .finished := by
  by_cases hg : f = g
  · subst hg
    exact .inr (actionEffect_exit_phase ..)
  · rw [actionEffect_otherPhase _ _ _ _ _ _ _ hg]
    exact h.idle g (by rw [hf]; simpa using hg)

/-- A turn keeps the registers legal, whatever the table. -/
theorem turnInst_legal {x : Inst} (h : x.Legal) (ev rv : Bool) (evid : Byte) (i : Nat) (s : State) (b : Bool) :
    (turnInst ev rv evid i s b x).Legal := by
  cases hs : isSentinel x.as with
  | true =>
    have has : x.as = .noState := (isSentinel_iff.mp hs).resolve_right h.known
    rw [turnInst_of_sentinel hs, ← has]
    exact h
  | false =>
    obtain ⟨f, hf⟩ := funcOf_of_not_sentinel hs
    cases hm : malformedCall ev rv with
    | true => rw [turnInst_malformed hf _ _ _ _ hm]; exact h
    | false =>
      by_cases hp : x.ph.get f = .exit
      · obtain ⟨⟨id, data, rsn, hres⟩, -⟩ := actionEffect_exit s.cfg f i evid b x
        have hnext := nextState_done_ne_reserved7 s i x.as id data rsn
        rw [turnInst_leave hf _ _ _ _ hm hp, hres]
        exact legal_of_idle hnext (actionEffect_exit_idle h hf s.cfg i evid b)
      · rw [turnInst_stay hf _ _ _ _ hm hp]
        exact actionEffect_legal h hf s.cfg i evid b

/-! ### The registers of all instances -/

/-- A claim about every button's registers is one about every instance. -/
theorem forall_lanes_iff (s : State) (P : Inst → Prop) :
    (∀ l ∈ s.lanes, P l.inst) ↔ ∀ i < s.count, P (s.inst i) := by
  constructor
  · intro h i hi
    have hl : s.lanes[i]? = some s.lanes[i] := List.getElem?_eq_getElem hi
    rw [State.inst, lane_of_getElem? hl]
    exact h _ (List.getElem_mem hi)
  · intro h l hl
    obtain ⟨i, hi, rfl⟩ := List.mem_iff_getElem.mp hl
    have hli : s.lanes[i]? = some s.lanes[i] := List.getElem?_eq_getElem hi
    have hinst := h i hi
    rwa [State.inst, lane_of_getElem? hli] at hinst

/-- A tick keeps what a later timer and a turn keep: `Q` is what holds of an instance when its turn comes. -/
theorem acceptedTick_forall {P Q : Inst → Prop} {ev rv : Bool} {evid : Byte} {s : State}
    (hlater : ∀ x, P x → Q x.later) (hturn : ∀ i b x, Q x → P (turnInst ev rv evid i s b x))
    (h : ∀ i < s.count, P (s.inst i)) (i : Nat) (hi : i < s.count) :
    P ((acceptedTick ev rv evid s).inst i) := by
  obtain ⟨u, hu⟩ := acceptedTick_turns ev rv evid s
  rw [hu.inst_eq hi]
  exact hturn i _ _ (hlater _ (h i hi))

/-- RESET gives every instance its reset registers. -/
theorem resetRegs_inst {s : State} {i : Nat} (hi : i < s.count) : (resetRegs s).inst i = .reset := by
  have hi' : i < s.lanes.length := hi
  simp [State.inst, lane_eq, resetRegs, hi']

@[simp] theorem resetRegs_count (s : State) : (resetRegs s).count = s.count := by
  simp [State.count, resetRegs]

/-- A step of a state function run alone, on its own registers. -/
theorem phaseAction_inst {f : Func} {p : Phase} {i : Nat} {s : State} (hi : i < s.count) (evid : Byte) :
    (phaseAction f p i evid s).2.inst i =
      (actionEffect s.cfg f p i evid (s.nextSample (sampleChannel s.cfg f i)) (s.inst i)).inst := by
  rw [phaseAction_eq f p i evid s hi]
  exact Effect.apply_inst _ _ hi

theorem Effect.apply_inst_ne (e : Effect) {i j : Nat} (c : Nat) (s : State) (hij : i ≠ j) :
    (e.apply i c s).2.inst j = s.inst j :=
  ((e.apply_onlyOutside i c s).inst j).trans (stepped_inst_ne s c e hij)

theorem Effect.apply_count (e : Effect) (i c : Nat) (s : State) : (e.apply i c s).2.count = s.count :=
  (e.apply_onlyOutside i c s).count.trans (stepped_count s i c e)

/-! ### Every step -/

/-- No step writes the ROM or a parameter, or changes the number of instances. -/
theorem StepTo.build {s t : State} (h : StepTo s t) : t.cfg = s.cfg ∧ t.count = s.count := by
  cases h with
  | idle => exact ⟨rfl, rfl⟩
  | reset => exact ⟨rfl, resetRegs_count _⟩
  | setup => exact ⟨rfl, rfl⟩
  | tick =>
    obtain ⟨u, hu⟩ := acceptedTick_turns _ _ _ _
    exact ⟨hu.cfg, hu.count⟩
  | tickOff => exact ⟨rfl, rfl⟩
  | badCmd => exact ⟨rfl, rfl⟩
  | @control i evid rest f hp hi hf =>
    rw [phaseAction_eq _ _ _ _ _ (show i < State.count { s with port := rest } from hi)]
    exact ⟨Effect.apply_cfg .., Effect.apply_count ..⟩
  | outside _ _ hout => exact ⟨hout.cfg, hout.count⟩

/-- Settles O50. -/
theorem noStepWritesTheRomOrTheBuild : Obligations.NoStepWritesTheRomOrTheBuild := by
  unfold Obligations.NoStepWritesTheRomOrTheBuild
  exact fun _ _ h => (stepTo_of_step h).build

/-- A claim about an instance's registers that reset registers satisfy, that a phase action of the active state keeps
(where one is run alone) and that a tick keeps, is kept by every step. -/
theorem StepTo.forall_inst {P Q : Inst → Prop} {s t : State} (h : StepTo s t) (hreset : P .reset)
    (hcontrol : (∃ i evid rest, s.port = .control i evid :: rest) → ∀ x f c i evid b, P x → funcOf x.as = some f →
      P (actionEffect c f (x.ph.get f) i evid b x).inst)
    (hlater : ∀ x, P x → Q x.later)
    (hturn : ∀ ev rv evid u i b x, u.cfg = s.cfg → Q x → P (turnInst ev rv evid i u b x))
    (hs : ∀ i < s.count, P (s.inst i)) : ∀ i < t.count, P (t.inst i) := by
  intro j hj
  rw [h.build.2] at hj
  cases h with
  | idle => exact hs j hj
  | reset => rw [answer_inst, resetRegs_inst (by exact hj)]; exact hreset
  | setup => exact hs j hj
  | @tick w rest ev rv =>
    exact acceptedTick_forall (s := { s with port := rest }) hlater (hturn ev rv _ { s with port := rest } · · · rfl) hs
      j hj
  | tickOff => exact hs j hj
  | badCmd => exact hs j hj
  | @control i evid rest f hp hi hf =>
    have hi' : i < State.count { s with port := rest } := hi
    rw [answer_inst]
    by_cases hij : i = j
    · subst hij
      rw [phaseAction_inst hi']
      exact hcontrol ⟨_, _, _, hp⟩ _ _ _ _ _ _ (hs i hi) hf
    · rw [phaseAction_eq _ _ _ _ _ hi', Effect.apply_inst_ne _ _ _ hij]
      exact hs j hj
  | outside _ _ hout => rw [answer_inst, hout.inst]; exact hs j hj

/-- Settles O49: legal registers are kept by reset, by the phase action of the active state and by a turn. -/
theorem everyStepKeepsTheInvariant : Obligations.EveryStepKeepsTheInvariant := by
  unfold Obligations.EveryStepKeepsTheInvariant
  intro s t hinv hstep
  have hto := stepTo_of_step hstep
  obtain ⟨hcfg, hcount⟩ := hto.build
  refine ⟨by rw [hcfg]; exact hinv.build, by rw [hcfg]; exact hcount.trans hinv.copies, ?_⟩
  refine (forall_lanes_iff t Inst.Legal).mpr (hto.forall_inst legal_reset ?_ (fun _ h => h.later) ?_
    ((forall_lanes_iff s Inst.Legal).mp hinv.legal))
  · exact fun _ _ _ _ _ _ _ hx hf => actionEffect_legal hx hf _ _ _ _
  · exact fun _ _ _ _ _ _ _ _ hx => turnInst_legal hx _ _ _ _ _ _

/-- Settles O48: after reset every phase is idle. -/
theorem invariantHoldsAtReset : Obligations.InvariantHoldsAtReset := by
  unfold Obligations.InvariantHoldsAtReset
  have hreset : ∀ c streams q, c.wf = true → streams.length = c.n → (State.resetWith c streams q).Inv := by
    intro c streams q hwf hlen
    refine ⟨hwf, (List.length_map _).trans hlen, fun l hl => ?_⟩
    obtain ⟨ch, -, rfl⟩ := List.mem_map.mp hl
    exact legal_reset
  exact ⟨hreset, hreset _ _ _ (by decide) (by simp)⟩

/-- Settles O51: only a tick or RESET touches an instance at the sentinel, and a turn leaves it there. -/
theorem sentinelIsLeftByResetOnly : Obligations.SentinelIsLeftByResetOnly := by
  unfold Obligations.SentinelIsLeftByResetOnly
  intro s t i hi hdead hstep hnoReset
  cases stepTo_of_step hstep with
  | idle => exact hdead
  | reset hp hw => exact absurd hw (hnoReset _ _ _ hp)
  | setup => exact hdead
  | @tick w rest ev rv ig evid evdata aux hp hw hen =>
    obtain ⟨u, hu⟩ := acceptedTick_turns ev rv evid { s with port := rest }
    exact hu.dead hi hdead
  | tickOff => exact hdead
  | badCmd => exact hdead
  | @control j evid rest f hp hj hf =>
    have hij : j ≠ i := by
      rintro rfl
      rw [hdead] at hf
      cases hf
    rw [State.as, answer_inst, phaseAction_eq _ _ _ _ _ (by exact hj), Effect.apply_inst_ne _ _ _ hij]
    exact hdead
  | outside _ _ hout => rw [State.as, answer_inst, hout.inst]; exact hdead

end Sys2Proof.Machine
end

section
/-! O22 to O25, O28, O31 (43_dispatch_table.md). The match is the rule's four comparisons; a row run alone is one try of
the search; so the rows tried one by one find what the search finds, and DISPATCH is its step and that search. -/

namespace Sys2Proof.Machine

open Sys2Proof

/-! ### The match (R141) -/

/-- A byte has no bit outside the mask just where masking keeps it. -/
theorem and_not_eq_zero_iff (d m : Byte) : d &&& ~~~m = 0 ↔ d &&& m = d := by
  simp only [BitVec.eq_of_getLsbD_eq_iff, BitVec.getLsbD_and, BitVec.getLsbD_not]
  refine forall₂_congr fun j hj => ?_
  simp [hj]

theorem evOf_eq_evByCode (s : State) (e : EvSel) : evOf s e = evByCode s e.code.toNat := by cases e <;> rfl

theorem rowMatches_iff {w : Row} {st : StateId} {evoId evoData rsn : Byte} {s : State} :
    rowMatches w st evoId evoData rsn s = true ↔ RowFits w st evoId evoData rsn s := by
  unfold rowMatches RowFits rsnOf
  simp only [Bool.and_eq_true, decide_eq_true_eq, Bool.not_eq_true',
    isSentinel_eq_false_iff, evOf_eq_evByCode, and_not_eq_zero_iff, and_assoc]

/-- Settles O25. -/
theorem matchAnswersTheFourComparisons : Obligations.MatchAnswersTheFourComparisons := by
  unfold Obligations.MatchAnswersTheFourComparisons
  exact fun w st evoId evoData rsn s => ⟨rowMatches w st evoId evoData rsn s, rfl, rowMatches_iff⟩

/-! ### One row -/

theorem runAction_eq_notified (a : Act) (x : ExitOut) (s : State) :
    runAction a x s = match a with
      | .nop => s
      | .notify => notified x.i x.evoId x.evoData x.rsn s := by
  cases a
  · rfl
  · exact actNotify_eq_notified ..

theorem tryRow_of_fits {w : Row} {x : ExitOut} {s : State} (h : RowFits w x.s x.evoId x.evoData x.rsn s) :
    tryRow w x s = (some (rowTarget w), runAction w.act x s) := if_pos (rowMatches_iff.mpr h)

theorem tryRow_of_not_fits {w : Row} {x : ExitOut} {s : State} (h : ¬RowFits w x.s x.evoId x.evoData x.rsn s) :
    tryRow w x s = (none, s) := if_neg fun hm => h (rowMatches_iff.mp hm)

/-- Every row operation tries its row. -/
theorem exec_of_rowOf {instr : Instr} {w : Row} {x : ExitOut} (h : rowOf instr = some (w, x)) (s : State) :
    exec instr s = onRow w x s := by
  cases instr <;> cases h <;> rfl

theorem rowTarget_eq (w : Row) : rowTarget w = if w.next = .reserved7 then .noState else w.next := by
  unfold rowTarget
  cases w.next <;> rfl

/-- Settles O23: a row operation is one try. -/
theorem rowMatchesThenActsThenGivesNext : Obligations.RowMatchesThenActsThenGivesNext := by
  unfold Obligations.RowMatchesThenActsThenGivesNext
  intro instr w x s hrow hi
  have hexec : exec instr s = .next ((tryRow w x s).2.answer (.row (tryRow w x s).1)) :=
    (exec_of_rowOf hrow s).trans (onInstance_of_lt hi _)
  refine ⟨fun h => ?_, fun h => ?_⟩
  · rw [hexec, tryRow_of_not_fits h]
    rfl
  · rw [hexec, tryRow_of_fits h, runAction_eq_notified, rowTarget_eq]
    rfl

/-- Settles O24. -/
theorem defaultRowsActAsTheirWords : Obligations.DefaultRowsActAsTheirWords := by
  unfold Obligations.DefaultRowsActAsTheirWords
  exact fun w x s => exec_decodeRow w x s

/-- Settles O28. -/
theorem outwardAnswersTheIdentifierOfTheReason : Obligations.OutwardAnswersTheIdentifierOfTheReason := by
  unfold Obligations.OutwardAnswersTheIdentifierOfTheReason
  intro evoId rsn s
  calc exec (.outward evoId rsn) s
    _ = .next (s.withRes (.ident (outwardId evoId rsn s))) := rfl
    _ = .next (s.withRes (.ident (outwardOf s.cfg evoId rsn))) := by rw [outwardId_eq_outwardOf]

/-! ### The search, row operation by row operation -/

theorem answer_answer (s : State) (r r' : Result) : (s.answer r).answer r' = s.answer r' := rfl

/-- No action reads or writes the value last returned. -/
theorem runAction_answer (a : Act) (x : ExitOut) (s : State) (r : Result) :
    runAction a x (s.answer r) = (runAction a x s).answer r := by
  cases a with
  | nop => rfl
  | notify =>
    simp only [runAction, actNotify_eq_notified]
    by_cases h : outwardOf s.cfg x.evoId x.rsn = evNone
    · rw [notified_of_none h, notified_of_none (s := s.answer r) h]
    · rw [notified_of_ne_none h, notified_of_ne_none (s := s.answer r) h]
      rfl

/-- The row operations of a table, run in order, find the row the search takes and run its action. -/
theorem searchByOps_eq {x : ExitOut} {s : State} (hi : x.i < s.count) (ws : List Word) (r : Result) :
    ∃ r', searchByOps ws x (s.answer r) = some (match findRow s ws x with
      | some w => (some (rowTarget w), (runAction w.act x s).answer (.row (some (rowTarget w))))
      | none => (none, s.answer r')) := by
  induction ws generalizing r with
  | nil => exact ⟨r, rfl⟩
  | cons w ws ih =>
    have hexec : exec (decodeRow w x) (s.answer r) =
        .next ((tryRow (Row.ofWord w) x (s.answer r)).2.answer (.row (tryRow (Row.ofWord w) x (s.answer r)).1)) :=
      (exec_decodeRow w x _).trans (onInstance_of_lt (by exact hi) _)
    have hmatch : rowMatches (Row.ofWord w) x.s x.evoId x.evoData x.rsn (s.answer r) =
        rowMatches (Row.ofWord w) x.s x.evoId x.evoData x.rsn s := rowMatches_congr rfl rfl ..
    simp only [searchByOps, hexec, findRow, tryRow, hmatch]
    cases rowMatches (Row.ofWord w) x.s x.evoId x.evoData x.rsn s with
    | true => exact ⟨r, by simp only [if_true, answer_res, runAction_answer, answer_answer]⟩
    | false => exact ih (.row none)

/-- Settles O22: the search of DISPATCH and that by row operations both run `findRow`. -/
theorem dispatchIsOneStepThenTheRowSearch : Obligations.DispatchIsOneStepThenTheRowSearch := by
  unfold Obligations.DispatchIsOneStepThenTheRowSearch
  intro i st ev evid rv s hi
  have hexec : exec (.dispatch i st ev evid rv) s = .next ((dispatchInst i st ev evid rv s).2.answer
      (.state (dispatchInst i st ev evid rv s).1)) := onInstance_of_lt hi _
  constructor
  · intro hst
    rw [hexec, dispatchInst_sentinel (isSentinel_iff.mpr hst)]
    rfl
  · intro hst
    have hsent : isSentinel st = false := isSentinel_eq_false_iff.mpr hst
    have hcount : (stepInst st i ev evid rv s).2.count = s.count := by
      rw [stepInst_eq st i ev evid rv s hi, Effect.apply_count]
    have hdisp : dispatchInst i st ev evid rv s = afterStep i st (stepInst st i ev evid rv s) :=
      if_neg (by simp [hsent])
    rw [hexec, hdisp]
    refine ⟨_, (stepInst st i ev evid rv s).1, onInstance_of_lt hi _, rfl, ?_⟩
    generalize stepInst st i ev evid rv s = p at hcount
    obtain ⟨r, t⟩ := p
    constructor
    · rintro rfl
      rfl
    · rintro id data rsn rfl
      have hit : i < t.count := by
        rw [show t.count = s.count from hcount]
        exact hi
      obtain ⟨r', hops⟩ := searchByOps_eq (x := ⟨i, st, id, data, rsn⟩) hit t.cfg.table (.step (.done id data rsn))
      simp only [afterStep, searchRows_eq, answer_cfg, hops]
      cases findRow t t.cfg.table ⟨i, st, id, data, rsn⟩ with
      | some w => exact ⟨_, .inl ⟨rowTarget w, rfl, rfl⟩⟩
      | none => exact ⟨_, .inr ⟨rfl, rfl⟩⟩

/-! ### The records of one DISPATCH (20_memory.md R55) -/

/-- What a step asks of the outside: nothing, a sample, a sample and then the timeout, or one error record; and nothing at
all where it is done. -/
theorem actionEffect_requests (c : Config) (f : Func) (p : Phase) (i : Nat) (evid : Byte) (b : Bool) (x : Inst) :
    ((actionEffect c f p i evid b x).pulls = false ∧ (actionEffect c f p i evid b x).err = none) ∨
      ((actionEffect c f p i evid b x).res = .notDone ∧ (actionEffect c f p i evid b x).pulls = true ∧
        ((actionEffect c f p i evid b x).err = none ∨
          f = .confirm ∧ (actionEffect c f p i evid b x).err = some .timeout)) := by
  cases p with
  | oper =>
    cases f with
    | start => exact .inl ⟨rfl, rfl⟩
    | confirm =>
      refine .inr ⟨(actionEffect_oper ..).1, ?_⟩
      show (confirmEffect c b x).pulls = true ∧ ((confirmEffect c b x).err = none ∨ _)
      unfold actionEffect confirmEffect
      split
      · split
        · exact ⟨rfl, .inr ⟨rfl, rfl⟩⟩
        · exact ⟨rfl, .inl rfl⟩
      · exact ⟨rfl, .inl rfl⟩
    | _ => exact .inr ⟨rfl, rfl, .inl rfl⟩
  | _ => cases f <;> exact .inl ⟨rfl, rfl⟩

theorem actionRecords_callRecords (s : State) (a : Act) (x : ExitOut) :
    CallRecords s.tickNo x.i (actionRecords s a x) := by
  cases a with
  | nop => exact .none
  | notify =>
    simp only [actionRecords]
    split
    · exact .none
    · cases s.nextAnswer with
      | true => exact .post ..
      | false => exact .postFail ..

theorem exitRecords_callRecords (s : State) (i : Nat) (st : StateId) (r : StepResult) :
    CallRecords s.tickNo i (exitRecords s i st r) := by
  cases r with
  | notDone => exact .none
  | done id data rsn =>
    simp only [exitRecords]
    split
    · exact actionRecords_callRecords s _ ⟨i, st, id, data, rsn⟩
    · exact .unmatched

theorem callRecords_callRecords (ev rv : Bool) (evid : Byte) (i : Nat) (st : StateId) (s : State) :
    CallRecords s.tickNo i (callRecords ev rv evid i st s) := by
  cases hs : isSentinel st with
  | true => simpa [callRecords, hs] using CallRecords.none
  | false =>
    obtain ⟨f, hf⟩ := funcOf_of_not_sentinel hs
    simp only [callRecords, hs, callEffect]
    cases hm : malformedCall ev rv with
    | true => simpa [stepEffect_of_malformed hf _ _ hm, effectRecords, exitRecords] using CallRecords.malformed
    | false =>
      rw [stepEffect_of_func hf _ _ hm]
      generalize s.nextSample (stepChannel s.cfg st i) = b
      rcases actionEffect_requests s.cfg f ((s.inst i).ph.get f) i evid b (s.inst i) with
        ⟨hp, he⟩ | ⟨hr, hp, he | ⟨rfl, he⟩⟩
      · simpa [effectRecords, hp, he] using exitRecords_callRecords s i st _
      · simpa [effectRecords, hr, hp, he, exitRecords] using CallRecords.pull _ _
      · have hown : stepChannel s.cfg st i = i := by simp [stepChannel, hf, sampleChannel]
        simpa [effectRecords, hr, hp, he, exitRecords, hown] using CallRecords.pullTimeout _

/-- Settles O31. -/
theorem dispatchMakesAtMostOneRequest : Obligations.DispatchMakesAtMostOneRequest := by
  unfold Obligations.DispatchMakesAtMostOneRequest
  intro i st ev evid rv s t hexec
  obtain ⟨hi, rfl⟩ := onInstance_next.mp hexec
  exact ⟨_, dispatchInst_history hi st ev evid rv, callRecords_callRecords ev rv evid i st s⟩

end Sys2Proof.Machine
end

section
/-! O29, O30, O53, O54: the default table (43_dispatch_table.md R150 to R163). Its rows are read once, as facts about
eleven words; the rest follows from them. O53 is two facts about a turn: an instance that is about to leave a state
holds an identifier and a reason some row asks for, and no row leads to Start or to the sentinel. -/

namespace Sys2Proof.Machine

open Sys2Proof

/-! ### The rows (R150 to R162) -/

/-- Two rows that no exit outputs fit both: another state, another reason, or the other of the two levels. -/
def RowsApart (r r' : Row) : Prop :=
  r.cur ≠ r'.cur ∨ (r.rsnIsTick = false ∧ r'.rsnIsTick = false ∧ r.rsn ≠ r'.rsn) ∨
    (r.evsel = .pressed ∧ r'.evsel = .released) ∨ (r.evsel = .released ∧ r'.evsel = .pressed)

theorem default_rows_apart : defaultTable.Pairwise fun u v => RowsApart (Row.ofWord u) (Row.ofWord v) := by
  unfold RowsApart
  decide

/-- Every default row asks for any event data, waits in a state that takes steps, and leads neither to the sentinel nor
back to Start. -/
theorem default_row_facts : ∀ w ∈ defaultTable, (Row.ofWord w).mask = 0xFF ∧
    ((Row.ofWord w).cur ≠ .noState ∧ (Row.ofWord w).cur ≠ .reserved7) ∧
    rowTarget (Row.ofWord w) ≠ .noState ∧ rowTarget (Row.ofWord w) ≠ .start := by
  have hall : defaultTable.all (fun w => decide ((Row.ofWord w).mask = 0xFF ∧
      ((Row.ofWord w).cur ≠ .noState ∧ (Row.ofWord w).cur ≠ .reserved7) ∧
      rowTarget (Row.ofWord w) ≠ .noState ∧ rowTarget (Row.ofWord w) ≠ .start)) = true := by decide
  exact fun w hw => of_decide_eq_true (List.all_eq_true.mp hall w hw)

theorem default_row_edges : defaultTable.map (fun w => ((Row.ofWord w).cur, rowTarget (Row.ofWord w))) =
    [(.start, .released), (.released, .cnfPress), (.cnfPress, .pressed), (.cnfPress, .released), (.cnfPress, .released),
      (.pressed, .cnfRelease), (.pressed, .stuck), (.cnfRelease, .released), (.cnfRelease, .pressed),
      (.cnfRelease, .released), (.stuck, .released)] := by
  decide

/-- Every default row is an edge of the state graph (R162). -/
theorem default_row_edge {w : Word} (hw : w ∈ defaultTable) :
    GraphMove (Row.ofWord w).cur (rowTarget (Row.ofWord w)) := by
  have hedge : ∀ e ∈ defaultTable.map (fun w => ((Row.ofWord w).cur, rowTarget (Row.ofWord w))), GraphMove e.1 e.2 := by
    rw [default_row_edges]
    simp only [List.forall_mem_cons, List.not_mem_nil, false_imp_iff, implies_true, and_true]
    exact ⟨.seed, .twitch, .pressed, .glitch, .glitch, .letGo, .held, .released, .dropOut, .released, .unstuck⟩
  exact hedge _ (List.mem_map_of_mem hw)

/-- In a legal build "pressed" is an identifier, and not the one of "released" (00_scope.md R7). -/
theorem wf_evPressed {c : Config} (h : c.wf = true) : c.evPressed ≠ 0 ∧ c.evPressed ≠ c.evReleased := by
  simp only [Config.wf, Bool.and_eq_true, decide_eq_true_eq, List.nodup_cons, List.mem_cons, not_or] at h
  obtain ⟨⟨⟨-, ⟨hzero, -⟩, ⟨hreleased, -⟩, -⟩, -⟩, -⟩ := h
  exact ⟨Ne.symm hzero, hreleased⟩

theorem not_fits_both {s : State} {r r' : Row} {st : StateId} {evoId evoData rsn : Byte} (hwf : s.cfg.wf = true)
    (hr : RowsApart r r') (h : RowFits r st evoId evoData rsn s) (h' : RowFits r' st evoId evoData rsn s) : False := by
  obtain ⟨-, hcur, hev, -, hrsn⟩ := h
  obtain ⟨-, hcur', hev', -, hrsn'⟩ := h'
  obtain ⟨-, hne⟩ := wf_evPressed hwf
  rcases hr with hr | ⟨ht, ht', hr⟩ | ⟨he, he'⟩ | ⟨he, he'⟩
  · exact hr (hcur.trans hcur'.symm)
  · rw [if_neg (by simp [ht])] at hrsn
    rw [if_neg (by simp [ht'])] at hrsn'
    exact hr (hrsn.trans hrsn'.symm)
  · rw [he] at hev
    rw [he'] at hev'
    exact hne (Option.some.inj (hev.trans hev'.symm))
  · rw [he] at hev
    rw [he'] at hev'
    exact hne (Option.some.inj (hev'.trans hev.symm))

/-- Settles O29: any two default rows are apart. -/
theorem defaultTableMatchesAtMostOneRow : Obligations.DefaultTableMatchesAtMostOneRow := by
  unfold Obligations.DefaultTableMatchesAtMostOneRow
  intro s st evoId evoData rsn j k u v hwf htable hu hv hfu hfv
  rw [htable] at hu hv
  obtain ⟨hj, rfl⟩ := List.getElem?_eq_some_iff.mp hu
  obtain ⟨hk, rfl⟩ := List.getElem?_eq_some_iff.mp hv
  have hapart := List.pairwise_iff_getElem.mp default_rows_apart
  rcases Nat.lt_trichotomy j k with hjk | hjk | hjk
  · exact (not_fits_both hwf (hapart j k hj hk hjk) hfu hfv).elim
  · exact hjk
  · exact (not_fits_both hwf (hapart k j hk hj hjk) hfv hfu).elim

/-- What a turn stores is the state it had, a matched row's, or the sentinel. -/
theorem nextState_graphMove {s : State} (htable : s.cfg.table = defaultTable) (i : Nat) (st : StateId)
    (r : StepResult) : GraphMove st (nextState s i st r) := by
  cases r with
  | notDone => exact .stay st
  | done evoId evoData rsn =>
    simp only [nextState, htable]
    cases hrow : findRow s defaultTable ⟨i, st, evoId, evoData, rsn⟩ with
    | none => exact .dead st
    | some r =>
      obtain ⟨w, hw, rfl, hm⟩ := findRow_some hrow
      obtain ⟨-, hcur, -⟩ := rowMatches_iff.mp hm
      have hedge := default_row_edge hw
      rwa [hcur] at hedge

/-- Settles O30. -/
theorem defaultTableFollowsTheStateGraph : Obligations.DefaultTableFollowsTheStateGraph := by
  unfold Obligations.DefaultTableFollowsTheStateGraph
  intro i st ev evid rv s t n htable hexec hres
  obtain ⟨hi, rfl⟩ := onInstance_next.mp hexec
  cases hres
  cases hs : isSentinel st with
  | true => rw [dispatchInst_sentinel hs]; exact .dead st
  | false =>
    obtain ⟨hnext, -⟩ := dispatchInst_spec hs hi ev evid rv _ rfl
    rw [hnext]
    exact nextState_graphMove htable ..

/-! ### An exit always finds a row (R163, item 2) -/

theorem findRow_of_mem {s : State} {x : ExitOut} {ws : List Word} {w : Word} (hw : w ∈ ws)
    (h : RowFits (Row.ofWord w) x.s x.evoId x.evoData x.rsn s) : ∃ r, findRow s ws x = some r := by
  induction ws with
  | nil => cases hw
  | cons v ws ih =>
    simp only [findRow]
    split
    · exact ⟨_, rfl⟩
    · next hv =>
      rcases List.mem_cons.mp hw with rfl | hw
      · exact absurd (rowMatches_iff.mpr h) hv
      · exact ih hw

/-- A default row fits where its state, identifier and reason do. -/
theorem default_row_fits {w : Word} (hw : w ∈ defaultTable) {s : State} {st : StateId} {evoId rsn : Byte}
    (evoData : Byte) (hcur : (Row.ofWord w).cur = st) (hev : evOf s (Row.ofWord w).evsel = some evoId)
    (hrsn : rsnOf s (Row.ofWord w) = rsn) : RowFits (Row.ofWord w) st evoId evoData rsn s := by
  obtain ⟨hmask, hne, -⟩ := default_row_facts w hw
  refine ⟨hne, hcur, by rw [← evOf_eq_evByCode, hev], ?_, hrsn⟩
  rw [hmask]
  exact BitVec.and_allOnes

/-- The states a state function serves (10_state.md R14). -/
theorem state_of_func {st : StateId} {f : Func} (h : funcOf st = some f) : match f with
    | .start => st = .start
    | .released => st = .released
    | .confirm => st = .cnfPress ∨ st = .cnfRelease
    | .pressed => st = .pressed
    | .stuck => st = .stuck := by
  cases st <;> cases h <;> simp

/-- The exit outputs of an instance about to leave its state, with the identifier of the tick, fit a default row. -/
theorem default_row_of_exit {s : State} {x : Inst} (h : x.Driven s.tickid) {f : Func} (hf : funcOf x.as = some f)
    (hp : x.ph.get f = .exit) (i : Nat) (b : Bool) :
    ∃ evoId evoData rsn, (actionEffect s.cfg f .exit i s.tickid b x).res = .done evoId evoData rsn ∧
      ∃ w ∈ defaultTable, RowFits (Row.ofWord w) x.as evoId evoData rsn s := by
  cases f with
  | start =>
    have has : x.as = .start := state_of_func hf
    refine ⟨_, _, _, rfl, 0x23FE0080, by decide, default_row_fits (by decide) _ has.symm rfl ?_⟩
    exact (h.captured has hp).symm
  | released =>
    have has : x.as = .released := state_of_func hf
    exact ⟨_, _, _, rfl, 0x43FC02C0, by decide, default_row_fits (by decide) _ has.symm rfl rfl⟩
  | confirm =>
    obtain ⟨hconfirm, -⟩ := h.legal.reasons
    have has : x.as = .cnfPress ∨ x.as = .cnfRelease := state_of_func hf
    rcases hconfirm hf hp with ⟨hxr, hacc | hacc⟩ | hxr
    · refine ⟨s.cfg.evReleased, evData i, x.xr, by simp [actionEffect, hxr, hacc], ?_⟩
      rcases has with has | has
      · exact ⟨0x6BFC0480, by decide, default_row_fits (by decide) _ has.symm rfl hxr.symm⟩
      · exact ⟨0xABFC04A0, by decide, default_row_fits (by decide) _ has.symm rfl hxr.symm⟩
    · refine ⟨s.cfg.evPressed, evData i, x.xr, by simp [actionEffect, hxr, hacc], ?_⟩
      rcases has with has | has
      · exact ⟨0x67FC0520, by decide, default_row_fits (by decide) _ has.symm rfl hxr.symm⟩
      · exact ⟨0xA7FC0500, by decide, default_row_fits (by decide) _ has.symm rfl hxr.symm⟩
    · refine ⟨s.tickid, evData i, x.xr, by simp [actionEffect, hxr, rsnTimeout, rsnDebounced], ?_⟩
      rcases has with has | has
      · exact ⟨0x63FC0680, by decide, default_row_fits (by decide) _ has.symm rfl hxr.symm⟩
      · exact ⟨0xA3FC0680, by decide, default_row_fits (by decide) _ has.symm rfl hxr.symm⟩
  | pressed =>
    have has : x.as = .pressed := state_of_func hf
    obtain ⟨-, hpressed⟩ := h.legal.reasons
    rcases hpressed has hp with hxr | hxr
    · exact ⟨_, _, _, rfl, 0x83FC0340, by decide, default_row_fits (by decide) _ has.symm rfl hxr.symm⟩
    · exact ⟨_, _, _, rfl, 0x83FC07A0, by decide, default_row_fits (by decide) _ has.symm rfl hxr.symm⟩
  | stuck =>
    have has : x.as = .stuck := state_of_func hf
    exact ⟨_, _, _, rfl, 0xC3FC08A0, by decide, default_row_fits (by decide) _ has.symm rfl rfl⟩

/-- A turn of a driven instance with the identifier of the tick finds a row where it searches for one, and the row leads
neither to the sentinel nor to Start. -/
theorem nextState_of_exit {s : State} (htable : s.cfg.table = defaultTable) {x : Inst} (h : x.Driven s.tickid)
    {f : Func} (hf : funcOf x.as = some f) (hp : x.ph.get f = .exit) (i : Nat) (b : Bool) :
    nextState s i x.as (actionEffect s.cfg f .exit i s.tickid b x).res ≠ .noState ∧
      nextState s i x.as (actionEffect s.cfg f .exit i s.tickid b x).res ≠ .start := by
  obtain ⟨evoId, evoData, rsn, hres, w, hw, hfits⟩ := default_row_of_exit h hf hp i b
  obtain ⟨r, hr⟩ := findRow_of_mem (x := ⟨i, x.as, evoId, evoData, rsn⟩) hw hfits
  obtain ⟨v, hv, rfl, -⟩ := findRow_some hr
  obtain ⟨-, -, hlive, hstart⟩ := default_row_facts v hv
  rw [hres, nextState, htable, hr]
  exact ⟨hlive, hstart⟩

theorem Inst.Driven.func {tickid : Byte} {x : Inst} (h : x.Driven tickid) : ∃ f, funcOf x.as = some f :=
  funcOf_of_not_sentinel (isSentinel_eq_false_iff.mpr ⟨h.alive, h.legal.known⟩)

/-- A well-formed turn with the identifier of the tick keeps an instance driven. -/
theorem turnInst_driven {s : State} (htable : s.cfg.table = defaultTable) {x : Inst} (h : x.Driven s.tickid) (i : Nat)
    (b : Bool) : (turnInst true true s.tickid i s b x).Driven s.tickid := by
  obtain ⟨f, hf⟩ := h.func
  have hlegal := turnInst_legal h.legal true true s.tickid i s b
  by_cases hp : x.ph.get f = .exit
  · obtain ⟨hlive, hstart⟩ := nextState_of_exit htable h hf hp i b
    rw [turnInst_leave hf s.tickid i s b rfl hp] at hlegal ⊢
    exact ⟨hlegal, hlive, fun has => absurd has hstart⟩
  · rw [turnInst_stay hf s.tickid i s b rfl hp] at hlegal ⊢
    have has := actionEffect_as s.cfg f i s.tickid b x (x.ph.get f)
    refine ⟨hlegal, by rw [has]; exact h.alive, fun hst _ => ?_⟩
    rw [has] at hst
    rw [hst] at hf
    cases hf
    cases hq : x.ph.get .start with
    | oper => exact absurd hq h.legal.start
    | exit => exact absurd hq hp
    | uninit => rfl
    | finished => rfl

/-! ### The records of a disciplined turn -/

theorem actionRecords_matched (s : State) (a : Act) (x : ExitOut) : ∀ r ∈ actionRecords s a x, r.isUnmatched = false := by
  cases a with
  | nop => nofun
  | notify =>
    simp only [actionRecords]
    split
    · nofun
    · cases s.nextAnswer <;> simp [Record.isUnmatched]

theorem effectRecords_matched {e : Effect} (he : e.err ≠ some .unmatched) (s : State) (i c : Nat) :
    ∀ r ∈ effectRecords s i c e, r.isUnmatched = false := by
  intro r hr
  rcases List.mem_append.mp hr with hr | hr
  · split at hr
    · obtain rfl := List.mem_singleton.mp hr
      rfl
    · cases hr
  · split at hr
    · next k hk =>
      obtain rfl := List.mem_singleton.mp hr
      cases k with
      | unmatched => exact absurd hk he
      | _ => rfl
    · cases hr

/-- A well-formed call for a driven instance with the identifier of the tick records no unmatched transition. -/
theorem callRecords_matched {s : State} (htable : s.cfg.table = defaultTable) {i : Nat}
    (h : (s.inst i).Driven s.tickid) :
    ∀ r ∈ callRecords true true s.tickid i (s.as i) s, r.isUnmatched = false := by
  obtain ⟨f, hf⟩ := h.func
  have hf' : funcOf (s.as i) = some f := hf
  unfold callRecords callEffect
  rw [stepEffect_of_func hf' s.cfg i rfl]
  generalize s.nextSample (stepChannel s.cfg (s.as i) i) = b
  split
  · nofun
  · intro r hr
    rcases List.mem_append.mp hr with hr | hr
    · refine effectRecords_matched ?_ s i _ r hr
      rcases actionEffect_requests s.cfg f ((s.inst i).ph.get f) i s.tickid b (s.inst i) with
        ⟨-, he⟩ | ⟨-, -, he | ⟨-, he⟩⟩ <;> rw [he] <;> nofun
    · by_cases hp : (s.inst i).ph.get f = .exit
      · obtain ⟨evoId, evoData, rsn, hres, w, hw, hfits⟩ := default_row_of_exit h hf hp i b
        obtain ⟨row, hrow⟩ := findRow_of_mem (x := ⟨i, s.as i, evoId, evoData, rsn⟩) hw hfits
        rw [hp, hres] at hr
        simp only [exitRecords, htable, hrow] at hr
        exact actionRecords_matched s _ _ r hr
      · rw [actionEffect_notDone _ _ hp] at hr
        cases hr

/-! ### Disciplined runs -/

/-- What a TICK of a disciplined run does: every instance stays driven, the block stays armed, nothing is unmatched. -/
theorem TickTurns.disciplined {s t : State} {u : Nat → State} (hu : TickTurns true true s.tickid s t u)
    (htable : s.cfg.table = defaultTable) (h : ∀ i < s.count, (s.inst i).Driven s.tickid) :
    (∀ i < s.count, (t.inst i).Driven s.tickid) ∧ t.drvEn = true ∧
      ∃ rs, t.history = s.history ++ rs ∧ ∀ r ∈ rs, r.isUnmatched = false := by
  have hlater : ∀ i < s.count, (s.inst i).later.Driven s.tickid := fun i hi =>
    ⟨(h i hi).legal.later, (h i hi).alive, (h i hi).captured⟩
  have hdriven : ∀ i < s.count, (t.inst i).Driven s.tickid := by
    intro i hi
    rw [hu.inst_eq hi]
    exact turnInst_driven htable (hlater i hi) i _
  have harmed : t.drvEn = true := by
    rw [← Bool.not_eq_false, hu.drvEn]
    rintro ⟨-, i, hi, hdead⟩
    rw [hu.count] at hi
    exact (hdriven i hi).alive hdead
  refine ⟨hdriven, harmed, _, by rw [hu.history, harmed, if_pos rfl, List.append_nil], fun r hr => ?_⟩
  obtain ⟨i, hi, hr⟩ := List.mem_flatMap.mp hr
  have hi := mem_descending.mp hi
  have hid : (u i).tickid = s.tickid := (hu.starts i hi).tickid
  rw [← hid] at hr
  refine callRecords_matched ?_ ?_ r hr
  · rw [(hu.starts i hi).cfg]
    exact htable
  · rw [hu.start_inst hi, hid]
    exact hlater i hi

theorem disciplined_tick {tickid : Byte} {w : Word} (h : (Request.command w).disciplined tickid) :
    ∃ ig evdata aux, decodeHC w = .tick true true ig tickid evdata aux := by
  obtain ⟨v, ig, evdata, aux, hv, hw⟩ := h
  cases hv
  exact ⟨ig, evdata, aux, hw⟩

/-- Settles O53: a disciplined port gives well-formed TICKs carrying `TICKID` only. -/
theorem disciplinedHostNeverLosesAnInstance : Obligations.DisciplinedHostNeverLosesAnInstance := by
  unfold Obligations.DisciplinedHostNeverLosesAnInstance
  intro s t hs hstep
  have hinv : t.Inv := everyStepKeepsTheInvariant s t hs.inv hstep
  have htick : ∀ {w rest}, s.port = .command w :: rest →
      (∃ ig evdata aux, decodeHC w = .tick true true ig s.tickid evdata aux) ∧
        ∀ q ∈ rest, q.disciplined s.tickid := by
    intro w rest hp
    have hport := hs.port
    rw [hp, List.forall_mem_cons] at hport
    obtain ⟨hfirst, hrest⟩ := hport
    exact ⟨disciplined_tick hfirst, hrest⟩
  have hnotCommand : ∀ {q rest}, s.port = q :: rest → ∃ w, q = .command w := by
    intro q rest hp
    have hport := hs.port
    rw [hp, List.forall_mem_cons] at hport
    obtain ⟨⟨w, -, -, -, hw, -⟩, -⟩ := hport
    exact ⟨w, hw⟩
  cases stepTo_of_step hstep with
  | idle => exact ⟨hs, id, [], (List.append_nil _).symm, nofun⟩
  | @tick w rest ev rv ig evid evdata aux hp hw hen =>
    obtain ⟨⟨ig', evdata', aux', hw'⟩, hrest⟩ := htick hp
    cases hw.symm.trans hw'
    obtain ⟨u, hu⟩ := acceptedTick_turns true true s.tickid { s with port := rest }
    obtain ⟨hdriven, harmed, hrecords⟩ :=
      TickTurns.disciplined (s := { s with port := rest }) hu hs.table
        ((forall_lanes_iff s (Inst.Driven s.tickid)).mp hs.driven)
    refine ⟨⟨hinv, hu.cfg.symm ▸ hs.table, ?_, ?_⟩, fun _ => harmed, hrecords⟩
    · rw [answer_port, answer_tickid, hu.port, hu.tickid]
      exact hrest
    · rw [answer_tickid, hu.tickid]
      refine (forall_lanes_iff _ (Inst.Driven s.tickid)).mpr fun i hi => hdriven i ?_
      rwa [answer_count, hu.count] at hi
  | tickOff hp =>
    obtain ⟨-, hrest⟩ := htick hp
    exact ⟨⟨hinv, hs.table, hrest, hs.driven⟩, id, [], (List.append_nil _).symm, nofun⟩
  | reset hp hw | setup hp hw | badCmd hp hw =>
    obtain ⟨⟨_, _, _, hw'⟩, -⟩ := htick hp
    cases hw.symm.trans hw'
  | control hp =>
    obtain ⟨w, hw⟩ := hnotCommand hp
    cases hw
  | outside hp hq =>
    obtain ⟨w, hw⟩ := hnotCommand hp
    exact absurd hw (hq w)

/-- Settles O54: RESET leaves every instance at Start with idle phases, whatever it was. -/
theorem bootStartsADisciplinedRun : Obligations.BootStartsADisciplinedRun := by
  unfold Obligations.BootStartsADisciplinedRun
  intro s ig ig' tickid qh hwf hcopies htable hport
  have hlanes : ∀ l ∈ (resetRegs s).lanes, l.inst = .reset := by
    intro l hl
    obtain ⟨l', -, rfl⟩ := List.mem_map.mp hl
    rfl
  have hdriven : ∀ l ∈ (resetRegs s).lanes, l.inst.Driven tickid := by
    intro l hl
    rw [hlanes l hl]
    exact ⟨legal_reset, nofun, nofun⟩
  exact ⟨_, rfl, ⟨⟨hwf, (List.length_map _).trans hcopies, fun l hl => (hdriven l hl).legal⟩, htable, hport, hdriven⟩, rfl,
    rfl, rfl, rfl⟩

end Sys2Proof.Machine
end

section
/-! O1 to O8, O52, O55, O59: the host commands (44_driver_host.md). RESET, SETUP and the reserved command are one state
each. An accepted TICK is read off its turns: what it leaves in an instance, in which order its records come, and what a
button's turn depends on. -/

namespace Sys2Proof.Machine

open Sys2Proof

/-! ### RESET, SETUP, the reserved command and the refused TICK -/

theorem resetRegs_chan (s : State) (c : Nat) : (resetRegs s).chan c = s.chan c := by
  simp only [State.chan, lane_eq, resetRegs, List.getElem?_map]
  cases s.lanes[c]? <;> rfl

/-- Settles O1. -/
theorem resetGivesEveryRegisterItsResetValue : Obligations.ResetGivesEveryRegisterItsResetValue := by
  unfold Obligations.ResetGivesEveryRegisterItsResetValue
  intro ig s
  refine ⟨(resetRegs s).answer .nothing, rfl, resetRegs_count s, fun i hi => ?_, rfl, rfl, rfl, rfl, rfl, rfl, rfl, rfl,
    rfl⟩
  have hinst : ((resetRegs s).answer .nothing).inst i = .reset := resetRegs_inst hi
  simp only [State.as, State.ph, State.acc, State.tdb, State.tstk, State.xr, hinst]
  exact ⟨rfl, fun f => by cases f <;> rfl, rfl, rfl, rfl, rfl, resetRegs_chan s i⟩

/-- Settles O2. -/
theorem setupWritesThreeRegisters : Obligations.SetupWritesThreeRegisters := by
  unfold Obligations.SetupWritesThreeRegisters
  exact fun _ _ _ _ => rfl

/-- Settles O3. -/
theorem tickWhileDisabledChangesNothing : Obligations.TickWhileDisabledChangesNothing := by
  unfold Obligations.TickWhileDisabledChangesNothing
  exact fun ev rv ig evid evdata aux s h => execTick_of_disabled h ev rv ig evid evdata aux

/-- Settles O7. -/
theorem reservedCommandOnlyRecords : Obligations.ReservedCommandOnlyRecords := by
  unfold Obligations.ReservedCommandOnlyRecords
  exact fun _ _ => rfl

/-! ### The loop, operation by operation (R173) -/

@[simp] theorem answer_as (s : State) (r : Result) (i : Nat) : (s.answer r).as i = s.as i := rfl

theorem Effect.apply_answer (e : Effect) (i c : Nat) (s : State) (r : Result) :
    e.apply i c (s.answer r) = ((e.apply i c s).1, (e.apply i c s).2.answer r) := by
  obtain ⟨res, x, pulls, err⟩ := e
  cases pulls <;> cases err <;> rfl

theorem searchRows_answer (ws : List Word) (x : ExitOut) (s : State) (r : Result) :
    searchRows ws x (s.answer r) = ((searchRows ws x s).1, (searchRows ws x s).2.answer r) := by
  have hrow : findRow (s.answer r) ws x = findRow s ws x := findRow_congr (s := s.answer r) (t := s) rfl rfl ws x
  rw [searchRows_eq, searchRows_eq, hrow]
  cases findRow s ws x with
  | none => rfl
  | some w => simp only [runAction_answer]

/-- DISPATCH neither reads nor writes the value last returned. -/
theorem dispatchInst_answer {i : Nat} {s : State} (hi : i < s.count) (st : StateId) (ev : Bool) (evid : Byte)
    (rv : Bool) (r : Result) : dispatchInst i st ev evid rv (s.answer r) =
      ((dispatchInst i st ev evid rv s).1, (dispatchInst i st ev evid rv s).2.answer r) := by
  have hstep : stepInst st i ev evid rv (s.answer r) =
      ((stepInst st i ev evid rv s).1, (stepInst st i ev evid rv s).2.answer r) := by
    rw [stepInst_eq st i ev evid rv s hi, stepInst_eq st i ev evid rv (s.answer r) hi]
    exact Effect.apply_answer ..
  unfold dispatchInst
  rw [hstep]
  generalize stepInst st i ev evid rv s = p
  obtain ⟨res, t⟩ := p
  split
  · rfl
  · cases res with
    | notDone => rfl
    | done evoId evoData rsn => exact searchRows_answer ..

/-- The loop is one DISPATCH for each instance, highest first, its result stored in `AS`. -/
theorem driveByOps_eq (ev rv : Bool) (evid : Byte) : ∀ (k : Nat) (f : Bool) (s : State) (r : Result), k ≤ s.count →
    ∃ r', driveByOps ev rv evid (List.range k).reverse (s.answer r) =
      some ((driveAll ev rv evid k (f, s)).2.answer r') := by
  intro k
  induction k with
  | zero => exact fun _ _ r _ => ⟨r, rfl⟩
  | succ k ih =>
    intro f s r hk
    have hexec : exec (.dispatch k (s.as k) ev evid rv) (s.answer r) =
        .next ((dispatchInst k (s.as k) ev evid rv s).2.answer (.state (dispatchInst k (s.as k) ev evid rv s).1)) := by
      refine (onInstance_of_lt (by exact hk) _).trans ?_
      rw [dispatchInst_answer hk]
      rfl
    have hstore : ∀ (t : State) (n : StateId), t.withInst k { t.inst k with as := n } = t.setAs k n := fun t n =>
      (mapInst_eq_withInst t k fun x => { x with as := n }).symm
    obtain ⟨-, -, -, -, -, hcount⟩ := turn_frame hk ev rv evid
    obtain ⟨r', hr'⟩ := ih (driveOne ev rv evid k (f, s)).1 (turn ev rv evid k s)
      (.state (dispatchInst k (s.as k) ev evid rv s).1) (by omega)
    refine ⟨r', ?_⟩
    rw [List.range_succ, List.reverse_append, List.reverse_singleton, List.singleton_append, driveByOps,
      show (s.answer r).as k = s.as k from rfl, hexec]
    simp only [answer_res, hstore]
    exact hr'

/-- Settles O4: the loop's fail bit is the condition of the halt. -/
theorem acceptedTickIsAdvanceThenDispatchEach : Obligations.AcceptedTickIsAdvanceThenDispatchEach := by
  unfold Obligations.AcceptedTickIsAdvanceThenDispatchEach
  intro ev rv ig evid evdata aux s hen
  have hk : s.count ≤ (tickStart s).count := Nat.le_of_eq (tickStart_count s).symm
  obtain ⟨r, hops⟩ := driveByOps_eq ev rv evid s.count false (tickStart s) .nothing hk
  obtain ⟨hfail, -, -, -, -, -, hno, -, hcount⟩ := driveAll_frame ev rv evid s.count false (tickStart s) hk
  have hexec : exec (.tick ev rv ig evid evdata aux) s =
      .next ((endTick (driveAll ev rv evid s.count (false, tickStart s))).answer .nothing) :=
    execTick_of_enabled hen ev rv ig evid evdata aux
  refine ⟨(tickStart s).answer .nothing, _, rfl, hops, ?_⟩
  rw [hexec]
  generalize driveAll ev rv evid s.count (false, tickStart s) = p at *
  obtain ⟨f, t⟩ := p
  have hticks : t.tickNo = s.tickNo + 1 := hno
  have hcount : t.count = s.count := hcount.trans (tickStart_count s)
  have hfail : f = true ↔ s.cfg.failPolicy = .globalHalt ∧ (t.answer r).someDead := by
    unfold State.someDead
    rw [answer_count, hcount]
    simpa only [Bool.false_eq_true, false_or, answer_as, tickStart_cfg] using hfail
  rw [← hfail, ← hticks]
  cases f with
  | true => exact ⟨fun _ => rfl, fun h => absurd rfl h⟩
  | false => exact ⟨nofun, fun _ => rfl⟩

/-! ### What a TICK does not read (R181) -/

theorem stepInst_null_event (st : StateId) (i : Nat) (evid evid' : Byte) (rv : Bool) (s : State) :
    stepInst st i false evid rv s = stepInst st i false evid' rv s := by
  unfold stepInst
  cases funcOf st <;> rfl

theorem dispatchInst_null_event (i : Nat) (st : StateId) (evid evid' : Byte) (rv : Bool) (s : State) :
    dispatchInst i st false evid rv s = dispatchInst i st false evid' rv s := by
  unfold dispatchInst
  rw [stepInst_null_event st i evid evid']

theorem driveAll_null_event (rv : Bool) (evid evid' : Byte) (k : Nat) (r : Bool × State) :
    driveAll false rv evid k r = driveAll false rv evid' k r := by
  induction k generalizing r with
  | zero => rfl
  | succ k ih =>
    rw [driveAll, driveAll, ih]
    unfold driveOne
    rw [dispatchInst_null_event k _ evid evid']

/-- Settles O5: only the identifier of a valid event reaches a step. -/
theorem tickIgnoresUnreadOperands : Obligations.TickIgnoresUnreadOperands := by
  unfold Obligations.TickIgnoresUnreadOperands
  intro ev rv ig ig' evid evid' evdata evdata' aux aux' s hid
  have htick : acceptedTick ev rv evid s = acceptedTick ev rv evid' s := by
    cases ev with
    | true => rw [hid rfl]
    | false => exact congrArg endTick (driveAll_null_event rv evid evid' _ _)
  show execTick ev rv ig evid evdata aux s = execTick ev rv ig' evid' evdata' aux' s
  unfold execTick
  rw [htick]

end Sys2Proof.Machine
end

section
/-! O6, O8, O52, O55, O59: an accepted TICK read off its turns (44_driver_host.md R176 to R181, 10_state.md R30), and the
status outputs (R183, R184). A malformed turn is one record; the records of any turn carry its instance and the tick;
and where Stuck samples its own channel a turn reads its own button alone. -/

namespace Sys2Proof.Machine

open Sys2Proof

/-! ### A malformed tick (R180, 60_exceptions.md R191) -/

/-- A malformed turn records one error and leaves `AS` as it is; at the sentinel or code 7 the sentinel is stored. -/
theorem turn_malformed {ev rv : Bool} (hm : malformedCall ev rv = true) (evid : Byte) (i : Nat) (s : State) :
    turn ev rv evid i s =
      if isSentinel (s.as i) then s.setAs i .noState
      else (s.raise (some i) .malformed).setAs i (s.as i) := by
  cases hs : isSentinel (s.as i) with
  | true => rw [turn, driveOne_sentinel hs]; rfl
  | false =>
    obtain ⟨f, hf⟩ := funcOf_of_not_sentinel hs
    simp [turn, driveOne, dispatchInst, hs, stepInst, hf, hm, afterStep]

/-- A malformed tick consumes no sample and posts nothing. -/
theorem acceptedTick_malformed_outside {ev rv : Bool} (hm : malformedCall ev rv = true) (evid : Byte) (s : State) :
    (∀ c, (acceptedTick ev rv evid s).chan c = s.chan c) ∧ (acceptedTick ev rv evid s).queue = s.queue := by
  have hloop : (∀ c, (driveAll ev rv evid s.count (false, tickStart s)).2.chan c = s.chan c) ∧
      (driveAll ev rv evid s.count (false, tickStart s)).2.queue = s.queue := by
    refine driveAll_induction (P := fun t => (∀ c, t.chan c = s.chan c) ∧ t.queue = s.queue) (n := s.count) ?_ _ _ _
      (Nat.le_refl _) (tickStart_count s) ⟨tickStart_chan s, rfl⟩
    rintro i f t hi - ⟨hchan, hqueue⟩
    rw [driveOne_snd, turn_malformed hm]
    split <;> simp [State.setAs, hchan, hqueue]
  rw [show acceptedTick ev rv evid s = endTick (driveAll ev rv evid s.count (false, tickStart s)) from rfl]
  generalize driveAll ev rv evid s.count (false, tickStart s) = p at hloop
  obtain ⟨f, t⟩ := p
  cases f <;> exact hloop

theorem callRecords_malformed {ev rv : Bool} (hm : malformedCall ev rv = true) (evid : Byte) (i : Nat) (st : StateId)
    (s : State) : callRecords ev rv evid i st s =
      if isSentinel st then [] else [.err s.tickNo (some i) .malformed] := by
  unfold callRecords
  cases hs : isSentinel st with
  | true => rfl
  | false =>
    obtain ⟨f, hf⟩ := funcOf_of_not_sentinel hs
    rw [callEffect, stepEffect_of_malformed hf _ _ hm]
    rfl

theorem turnInst_malformed_eq {ev rv : Bool} (hm : malformedCall ev rv = true) (evid : Byte) (i : Nat) (s : State)
    (b : Bool) (x : Inst) :
    turnInst ev rv evid i s b x = { x with as := if x.as = .reserved7 then .noState else x.as } := by
  cases hs : isSentinel x.as with
  | true =>
    rw [turnInst_of_sentinel hs]
    rcases isSentinel_iff.mp hs with has | has <;> simp [has]
  | false =>
    obtain ⟨f, hf⟩ := funcOf_of_not_sentinel hs
    have hne : x.as ≠ .reserved7 := by rintro h; rw [h] at hs; cases hs
    rw [turnInst_malformed hf evid i s b hm, if_neg hne]

theorem flatMap_ite_singleton {α β : Type} (p : α → Bool) (g : α → β) (l : List α) :
    (l.flatMap fun a => if p a then [] else [g a]) = (l.filter fun a => !p a).map g := by
  induction l with
  | nil => rfl
  | cons a l ih => cases hp : p a <;> simp [hp, ih]

theorem not_isSentinel_eq (st : StateId) : (!isSentinel st) = (st != .noState && st != .reserved7) := by
  cases st <;> rfl

/-- Settles O6: every turn is malformed, so the loop adds one record per live instance and no more. -/
theorem malformedTickOnlyRecordsAndAdvances : Obligations.MalformedTickOnlyRecordsAndAdvances := by
  unfold Obligations.MalformedTickOnlyRecordsAndAdvances
  intro ev rv ig evid evdata aux s hen hnull
  have hm : malformedCall ev rv = true := by rcases hnull with rfl | rfl <;> simp [malformedCall]
  obtain ⟨u, hu⟩ := acceptedTick_turns ev rv evid s
  obtain ⟨hchan, hqueue⟩ := acceptedTick_malformed_outside hm evid s
  refine ⟨_, execTick_of_enabled hen ev rv ig evid evdata aux, hu.count, fun i hi => ⟨hchan i, ?_⟩, ?_, ?_, hu.cfg, hqueue,
    hu.qh, hu.tickid, hu.tickNo⟩
  · rw [answer_inst, hu.inst_eq hi, turnInst_malformed_eq hm]
    rfl
  · rw [← Bool.not_eq_false]
    exact not_congr hu.drvEn
  · have hrecords : s.descending.flatMap (fun i => callRecords ev rv evid i ((u i).as i) (u i)) =
        s.descending.flatMap fun i =>
          if isSentinel (s.as i) then [] else [Record.err (s.tickNo + 1) (some i) .malformed] := by
      refine List.flatMap_congr fun i hi => ?_
      have hi := mem_descending.mp hi
      have hticks : (u i).tickNo = s.tickNo + 1 := (hu.starts i hi).tickNo
      rw [callRecords_malformed hm, hu.start_as hi, hticks]
    rw [answer_history, hu.history, hrecords, flatMap_ite_singleton]
    simp only [not_isSentinel_eq, answer_drvEn]
    rfl

/-! ### The records and the halt of a tick (20_memory.md R55, R178) -/

/-- Under GLOBAL a tick that finds an instance at the sentinel halts. -/
theorem TickTurns.halts {ev rv : Bool} {evid : Byte} {s t : State} {u : Nat → State} (hu : TickTurns ev rv evid s t u)
    {i : Nat} (hi : i < s.count) (hdead : s.as i = .noState) (hglobal : s.cfg.failPolicy = .globalHalt) :
    t.drvEn = false ∧ t.history.getLast? = some (.halt (s.tickNo + 1)) := by
  have hoff : t.drvEn = false := hu.drvEn.mpr ⟨hglobal, i, by rwa [hu.count], hu.dead hi hdead⟩
  rw [hu.history, hoff]
  exact ⟨rfl, List.getLast?_concat⟩

/-- Settles O8: SETUP touches no instance, and the tick after it halts on the sentinel it finds. -/
theorem setupAfterFailureHaltsAgain : Obligations.SetupAfterFailureHaltsAgain := by
  unfold Obligations.SetupAfterFailureHaltsAgain
  intro ig tickid qh ev rv ig' evid evdata aux s i hi hdead hglobal
  obtain ⟨u, hu⟩ := acceptedTick_turns ev rv evid ((setupRegs tickid qh s).answer .nothing)
  have hdead' := hu.dead (i := i) hi hdead
  obtain ⟨hoff, hlast⟩ := hu.halts (i := i) hi hdead hglobal
  refine ⟨(acceptedTick ev rv evid ((setupRegs tickid qh s).answer .nothing)).answer .nothing, ?_, hdead', hoff, hlast⟩
  show runOps [.tick ev rv ig' evid evdata aux] ((setupRegs tickid qh s).answer .nothing) = _
  rw [runOps, execTick_of_enabled (s := (setupRegs tickid qh s).answer .nothing) rfl]
  rfl

/-- Every record of a call carries its instance and the tick. -/
theorem CallRecords.tagged {n i : Nat} {rs : List Record} (h : CallRecords n i rs) :
    ∀ r ∈ rs, r.tickOf = n ∧ r.who = some i := by
  cases h <;> simp [Record.tickOf, Record.who]

/-- Settles O52: the records come turn by turn, the turns from the highest instance down. -/
theorem tickRecordsInOrderAndHaltsOnce : Obligations.TickRecordsInOrderAndHaltsOnce := by
  unfold Obligations.TickRecordsInOrderAndHaltsOnce
  intro ev rv ig evid evdata aux s t hen hexec
  obtain rfl : (acceptedTick ev rv evid s).answer .nothing = t :=
    Host.Outcome.next.inj ((execTick_of_enabled hen ev rv ig evid evdata aux).symm.trans hexec)
  obtain ⟨u, hu⟩ := acceptedTick_turns ev rv evid s
  have htag : ∀ i ∈ s.descending, ∀ r ∈ callRecords ev rv evid i ((u i).as i) (u i),
      r.tickOf = s.tickNo + 1 ∧ i < s.count ∧ r.who = some i := by
    intro i hi r hr
    have hi := mem_descending.mp hi
    have hticks : (u i).tickNo = s.tickNo + 1 := (hu.starts i hi).tickNo
    obtain ⟨htick, hwho⟩ := (callRecords_callRecords ev rv evid i ((u i).as i) (u i)).tagged r hr
    exact ⟨htick.trans hticks, hi, hwho⟩
  refine ⟨hu.drvEn, hu.tickNo, _, hu.history, fun r hr => ?_, List.pairwise_flatMap.mpr ⟨fun i hi => ?_, ?_⟩⟩
  · obtain ⟨i, hi, hr⟩ := List.mem_flatMap.mp hr
    obtain ⟨htick, hlt, hwho⟩ := htag i hi r hr
    exact ⟨htick, i, hlt, hwho⟩
  · refine List.pairwise_of_forall_mem_list fun r hr r' hr' j k hj hk => ?_
    obtain ⟨-, -, hwho⟩ := htag i hi r hr
    obtain ⟨-, -, hwho'⟩ := htag i hi r' hr'
    cases hj.symm.trans hwho
    cases hk.symm.trans hwho'
    exact Nat.le_refl _
  · have hdesc : s.descending.Pairwise fun i j => j < i := List.pairwise_reverse.mpr List.pairwise_lt_range
    refine hdesc.imp_of_mem fun {i j} hi hj hij r hr r' hr' k l hk hl => ?_
    obtain ⟨-, -, hwho⟩ := htag i hi r hr
    obtain ⟨-, -, hwho'⟩ := htag j hj r' hr'
    cases hk.symm.trans hwho
    cases hl.symm.trans hwho'
    exact Nat.le_of_lt hij

/-! ### What a button's turn depends on (10_state.md R30) -/

/-- Does the turn of an instance with the registers `x` consume a sample? -/
def turnPulls (ev rv : Bool) (evid : Byte) (i : Nat) (c : Config) (b : Bool) (x : Inst) : Bool :=
  !isSentinel x.as && (stepEffect c x.as i ev evid rv b x).pulls

theorem lanes_getElem? {s : State} {i : Nat} (hi : i < s.count) : s.lanes[i]? = some ⟨s.inst i, s.chan i⟩ := by
  have hl : s.lanes[i]? = some s.lanes[i] := List.getElem?_eq_getElem hi
  rw [State.inst, State.chan, lane_of_getElem? hl, hl]

/-- Where Stuck samples its own channel, a tick does to a button what one turn does with its own next sample. -/
theorem TickTurns.own {ev rv : Bool} {evid : Byte} {s t : State} {u : Nat → State} (hu : TickTurns ev rv evid s t u)
    (hch : s.cfg.stuckCh0 = false) {i : Nat} (hi : i < s.count) :
    t.inst i = turnInst ev rv evid i s (s.nextSample i) (s.inst i).later ∧
      t.chan i = if turnPulls ev rv evid i s.cfg (s.nextSample i) (s.inst i).later then
        { s.chan i with pulled := (s.chan i).pulled + 1 } else s.chan i := by
  have hcfg : (u i).cfg = s.cfg := (hu.starts i hi).cfg
  have hchan : (u i).chan i = s.chan i := ((hu.starts i hi).chan hch).trans (tickStart_chan s i)
  have hsample : (u i).nextSample i = s.nextSample i := by rw [State.nextSample, hchan, State.nextSample]
  constructor
  · rw [hu.inst_eq hi, stepChannel_own hch, hsample]
  · rw [hu.chan hch i hi, turn_chan (hu.present hi) ev rv evid (by rw [hcfg, hch]), hchan]
    simp only [callEffect, hcfg, stepChannel_own hch, hsample, hu.start_inst hi, hu.start_as hi, turnPulls,
      Bool.and_eq_true, Bool.not_eq_true', true_and]
    rfl

/-- Settles O55: with the same button, build and identifier the turn of the button is the same. -/
theorem buttonsDoNotInterfere : Obligations.ButtonsDoNotInterfere := by
  unfold Obligations.ButtonsDoNotInterfere
  intro ev rv ig evid evdata aux s s' t t' i l hch hcfg hid hen hl hl' hexec hexec'
  obtain ⟨hi, -⟩ := List.getElem?_eq_some_iff.mp hl
  obtain ⟨hi', -⟩ := List.getElem?_eq_some_iff.mp hl'
  have hlane : s'.lane i = s.lane i := (lane_of_getElem? hl').trans (lane_of_getElem? hl).symm
  have hinst : s'.inst i = s.inst i := congrArg Lane.inst hlane
  have hchan : s'.chan i = s.chan i := congrArg Lane.chan hlane
  have hsample : s'.nextSample i = s.nextSample i := by rw [State.nextSample, hchan, State.nextSample]
  cases he : s.drvEn with
  | false =>
    cases hexec.symm.trans (execTick_of_disabled he ev rv ig evid evdata aux)
    cases hexec'.symm.trans (execTick_of_disabled (hen.trans he) ev rv ig evid evdata aux)
    exact hl.trans hl'.symm
  | true =>
    cases hexec.symm.trans (execTick_of_enabled he ev rv ig evid evdata aux)
    cases hexec'.symm.trans (execTick_of_enabled (hen.trans he) ev rv ig evid evdata aux)
    obtain ⟨u, hu⟩ := acceptedTick_turns ev rv evid s
    obtain ⟨u', hu'⟩ := acceptedTick_turns ev rv evid s'
    obtain ⟨hti, htc⟩ := hu.own hch hi
    obtain ⟨hti', htc'⟩ := hu'.own (by rw [hcfg, hch]) hi'
    rw [answer_lanes, answer_lanes, lanes_getElem? (hu.count ▸ hi), lanes_getElem? (hu'.count ▸ hi'), hti, htc, hti', htc',
      turnInst_congr hcfg hid, hcfg, hsample, hinst, hchan]

/-! ### Status outputs and the tick generator (R183, R184) -/

/-- Settles O59. -/
theorem statusOutputsAndGenerator : Obligations.StatusOutputsAndGenerator := by
  unfold Obligations.StatusOutputsAndGenerator
  intro s
  refine ⟨rfl, rfl, fun i hi => ?_, fun hoff => if_neg (Bool.eq_false_iff.mp hoff), fun hon => ?_⟩
  · obtain ⟨hstate, hphase⟩ := bits_cwWord (s.as i) (controlPhase (s.inst i))
    refine ⟨by rw [State.asOut, lanes_getElem? hi]; rfl, controlWord (s.inst i), by rw [State.cwOut, lanes_getElem? hi]; rfl,
      hstate, fun f hf => ?_⟩
    exact hphase.trans (congrArg Phase.code (controlPhase_of_func hf))
  · exact ⟨.tick true true 0 s.tickid 0 0, _, if_pos hon, rfl, _, 0, 0, 0, rfl, decodeHC_tick ..⟩

end Sys2Proof.Machine
end

section
/-! O9, O10, O14 to O19, O21: the steps of Start, the confirm exit, Pressed and Stuck, run alone, and STEP
(42_state_functions.md). Each step answers the effect of its phase action; STEP is the phase action its control word
selects, and, like DISPATCH, it reaches the registers of its own instance only. -/

namespace Sys2Proof.Machine

open Sys2Proof

/-! ### The steps (R112 to R114, R120 to R126) -/

/-- Settles O9. -/
theorem startEntryCapturesAndExitEmits : Obligations.StartEntryCapturesAndExitEmits := by
  unfold Obligations.StartEntryCapturesAndExitEmits
  intro c i evid s hi
  exact ⟨onStep_phaseAction hi .start .uninit evid rfl, onStep_phaseAction hi .start .exit evid rfl⟩

/-- Settles O10. -/
theorem startOperOnlySetsExitPhase : Obligations.StartOperOnlySetsExitPhase := by
  unfold Obligations.StartOperOnlySetsExitPhase
  intro i evid s hi
  exact onStep_phaseAction hi .start .oper evid rfl

/-- The identifier a confirm state emits: the qualified level's, or the current one (R120). -/
def confirmExitId (c : Config) (evid : Byte) (x : Inst) : Byte :=
  if x.xr = rsnDebounced ∧ x.acc = 0xFF then c.evPressed
  else if x.xr = rsnDebounced ∧ x.acc = 0x00 then c.evReleased
  else evid

section

variable {c : Config} {x : Inst} (evid : Byte)

theorem confirmExitId_pressed (hx : x.xr = rsnDebounced) (ha : x.acc = 0xFF) : confirmExitId c evid x = c.evPressed :=
  if_pos ⟨hx, ha⟩

theorem confirmExitId_released (hx : x.xr = rsnDebounced) (ha : x.acc = 0x00) :
    confirmExitId c evid x = c.evReleased := by
  have hne : ¬(x.xr = rsnDebounced ∧ x.acc = 0xFF) := by
    rintro ⟨-, h⟩
    rw [ha] at h
    cases h
  exact (if_neg hne).trans (if_pos ⟨hx, ha⟩)

theorem confirmExitId_unqualified (h : x.xr ≠ rsnDebounced ∨ (x.acc ≠ 0xFF ∧ x.acc ≠ 0x00)) :
    confirmExitId c evid x = evid := by
  rcases h with hx | ⟨hff, hzero⟩
  · exact (if_neg fun h => hx h.1).trans (if_neg fun h => hx h.1)
  · exact (if_neg fun h => hff h.2).trans (if_neg fun h => hzero h.2)

end

/-- Settles O14. -/
theorem confirmExitEmitsTheQualifiedLevel : Obligations.ConfirmExitEmitsTheQualifiedLevel := by
  unfold Obligations.ConfirmExitEmitsTheQualifiedLevel
  intro d i evid s hi
  exact ⟨confirmExitId s.cfg evid (s.inst i), onStep_phaseAction hi .confirm .exit evid rfl,
    confirmExitId_pressed evid, confirmExitId_released evid, confirmExitId_unqualified evid⟩

section

variable (c : Config) (i : Nat) (evid : Byte) {x : Inst}

theorem pressedOper_zero : actionEffect c .pressed .oper i evid false x =
    ⟨.notDone, { x with xr := rsnTwitch, ph := x.ph.set .pressed .exit }, true, none⟩ := rfl

theorem pressedOper_expired (h : c.stuckTicks.toNat ≤ x.tstk.toNat) : actionEffect c .pressed .oper i evid true x =
    ⟨.notDone, { x with xr := rsnTimeout, ph := x.ph.set .pressed .exit }, true, none⟩ := by
  simp [actionEffect, expired_iff.mpr h]

theorem pressedOper_waiting (h : x.tstk.toNat < c.stuckTicks.toNat) :
    actionEffect c .pressed .oper i evid true x = ⟨.notDone, x, true, none⟩ := by
  have hexp : expired x.tstk c.stuckTicks = false := by
    rw [← Bool.not_eq_true, expired_iff]
    exact Nat.not_le.mpr h
  simp [actionEffect, hexp]

end

/-- Settles O15: the three cases of PRS.OPER, the sample before the timer. -/
theorem pressedStepsWatchTheSampleThenTheTimer : Obligations.PressedStepsWatchTheSampleThenTheTimer := by
  unfold Obligations.PressedStepsWatchTheSampleThenTheTimer
  rintro c i evid s p hi rfl
  have hoper : ∀ e, actionEffect s.cfg .pressed .oper i evid (s.nextSample i) (s.inst i) = e → exec (.prsOper i evid) s =
      .next (((s.stepped i i e).raised i e.err).withRes (.step e.res)) := fun e he =>
    onStep_phaseAction hi .pressed .oper evid he
  refine ⟨onStep_phaseAction hi .pressed .uninit evid rfl, fun hb => ?zero, fun hb ht => ?expired, fun hb ht => ?waiting,
    onStep_phaseAction hi .pressed .exit evid rfl⟩
  case zero => exact hoper _ (by rw [hb, pressedOper_zero])
  case expired => exact hoper _ (by rw [hb, pressedOper_expired _ _ _ ht])
  case waiting =>
    rw [hoper _ (by rw [hb, pressedOper_waiting _ _ _ ht]), stepped_of_inst_eq rfl rfl]
    rfl

/-- Settles O16. -/
theorem stuckEntryCaptures : Obligations.StuckEntryCaptures := by
  unfold Obligations.StuckEntryCaptures
  intro c i evid s hi
  exact onStep_phaseAction hi .stuck .uninit evid rfl

/-- Settles O17: STK.OPER pulls in both cases and writes a register only when the sample is a 0. -/
theorem stuckStepsSampleTheChosenChannel : Obligations.StuckStepsSampleTheChosenChannel := by
  unfold Obligations.StuckStepsSampleTheChosenChannel
  rintro i evid s c p hi rfl rfl
  have hchannel : sampleChannel s.cfg .stuck i = if s.cfg.stuckCh0 then 0 else i := by simp [sampleChannel]
  rw [← hchannel]
  have hoper : ∀ b, s.nextSample (sampleChannel s.cfg .stuck i) = b → exec (.stkOper i evid) s =
      .next ((s.stepped i (sampleChannel s.cfg .stuck i) (actionEffect s.cfg .stuck .oper i evid b (s.inst i))).withRes
        (.step .notDone)) := by
    rintro b rfl
    exact onStep_phaseAction hi .stuck .oper evid rfl
  refine ⟨fun hb => ?fires, fun hb => ?stays, onStep_phaseAction hi .stuck .exit evid rfl⟩
  case fires => rw [hoper false hb, stepped_of_pulls rfl]; rfl
  case stays => rw [hoper true hb, stepped_of_inst_eq rfl rfl]

/-! ### NOSTEP and STEP (R110, R145) -/

/-- Settles O18. -/
theorem noStepChangesNothing : Obligations.NoStepChangesNothing := by
  unfold Obligations.NoStepChangesNothing
  exact fun r p i evid s hi => onInstance_of_lt hi _

theorem funcOf_of_sentinel {st : StateId} (h : st = .noState ∨ st = .reserved7) : funcOf st = none := by
  rcases h with rfl | rfl <;> rfl

/-- Settles O19: the phase in the control word is the one STEP reads. -/
theorem stepRunsTheControlWord : Obligations.StepRunsTheControlWord := by
  unfold Obligations.StepRunsTheControlWord
  intro i evid s hi
  have hexec : ∀ ev rv, exec (.step (s.as i) i ev evid rv) s =
      .next ((stepInst (s.as i) i ev evid rv s).2.answer (.step (stepInst (s.as i) i ev evid rv s).1)) := fun ev rv =>
    onInstance_of_lt hi _
  refine ⟨fun hst => ?_, fun hst ev rv => ?_⟩
  · obtain ⟨f, hf⟩ := funcOf_of_not_sentinel (isSentinel_eq_false_iff.mpr hst)
    have hstep : ∀ ev rv, stepInst (s.as i) i ev evid rv s =
        if malformedCall ev rv then (.notDone, s.raise (some i) .malformed)
        else phaseAction f (s.ph i f) i evid s := fun ev rv => by rw [stepInst, hf]
    refine ⟨?_, ⟨_, hexec true true⟩, fun ev rv hm => ?_⟩
    · have hf' : funcOf (s.inst i).as = some f := hf
      rw [decode_controlWord, exec_stepOf_of_func hf', controlPhase_of_func hf', hexec, hstep]
      exact (onInstance_of_lt hi _).symm
    · have hmal : malformedCall ev rv = true := by rcases hm with rfl | rfl <;> simp [malformedCall]
      rw [hexec, hstep, if_pos hmal]
      rfl
  · rw [hexec, stepInst, funcOf_of_sentinel hst]
    rfl

/-- An effect reaches no register but its own instance's. -/
theorem Effect.apply_frame (e : Effect) (i c : Nat) (s : State) : (∀ j, i ≠ j → (e.apply i c s).2.inst j = s.inst j) ∧
    (e.apply i c s).2.drvEn = s.drvEn ∧ (e.apply i c s).2.qh = s.qh ∧ (e.apply i c s).2.tickid = s.tickid ∧
    (e.apply i c s).2.cfg = s.cfg ∧ (e.apply i c s).2.count = s.count := by
  have hout := e.apply_onlyOutside i c s
  exact ⟨fun j hij => e.apply_inst_ne c s hij, by rw [hout.drvEn, stepped_drvEn], by rw [hout.qh, stepped_qh],
    e.apply_tickid i c s, e.apply_cfg i c s, e.apply_count i c s⟩

/-- Settles O21: DISPATCH is its step and a search that stays outside the registers. -/
theorem stepOfOneInstanceLeavesTheOthers : Obligations.StepOfOneInstanceLeavesTheOthers := by
  unfold Obligations.StepOfOneInstanceLeavesTheOthers
  rintro st i j ev evid rv s t hij (hexec | hexec)
  · obtain ⟨hi, rfl⟩ := onStep_next.mp (show onStep i s (stepInst st i ev evid rv s) = .next t from hexec)
    rw [stepInst_eq st i ev evid rv s hi]
    obtain ⟨hother, hglobal⟩ := Effect.apply_frame
      (stepEffect s.cfg st i ev evid rv (s.nextSample (stepChannel s.cfg st i)) (s.inst i)) i (stepChannel s.cfg st i) s
    exact ⟨hother j hij, hglobal⟩
  · obtain ⟨hi, rfl⟩ := onInstance_next.mp hexec
    simp only [answer_inst, answer_drvEn, answer_qh, answer_tickid, answer_cfg, answer_count]
    cases hs : isSentinel st with
    | true =>
      rw [dispatchInst_sentinel hs]
      exact ⟨rfl, rfl, rfl, rfl, rfl, rfl⟩
    | false =>
      obtain ⟨-, hout⟩ := dispatchInst_spec hs hi ev evid rv _ rfl
      simp [hout.inst, hout.drvEn, hout.qh, hout.tickid, hout.cfg, hout.count, stepped_inst_ne _ _ _ hij]

end Sys2Proof.Machine
end

section
/-! O35 to O42: runs of the filter and of the timers, and the two ports (40_filter.md, 41_timer.md, 20_memory.md). A run
of shifts is a fold over the samples, whose bits are the samples in reverse; a run of advances counts up to 65535. -/

namespace Sys2Proof.Machine

open Sys2Proof

/-! ### The accumulator over a run of samples (40_filter.md R93, R94) -/

/-- The accumulator after the seed and the samples `bs` in pull order. -/
def accOf (bs : List Bool) : Byte := bs.foldl shiftIn 0x01

theorem accOf_concat (bs : List Bool) (b : Bool) : accOf (bs ++ [b]) = shiftIn (accOf bs) b := by
  simp [accOf]

/-- Bit `j` is the sample pulled `j` before the last, then the seed, then 0. -/
theorem accOf_getLsbD (bs : List Bool) : ∀ j < 8, (accOf bs).getLsbD j = ((bs.reverse ++ [true])[j]?).getD false := by
  induction bs using List.reverseRecOn with
  | nil => decide
  | append_singleton bs b ih =>
    intro j hj
    rw [accOf_concat, shiftIn_getLsbD _ _ hj, List.reverse_append, List.reverse_singleton]
    cases j with
    | zero => rfl
    | succ k => exact ih k (by omega)

theorem filterShift_acc {i : Nat} {s : State} (hi : i < s.count) (b : Bool) :
    (filterShift i b s).acc i = shiftIn (s.acc i) b := by
  rw [State.acc, filterShift, State.setAcc, mapInst_inst_self _ _ _ hi]

theorem runOps_filterShift {i : Nat} (bs : List Bool) : ∀ s : State, i < s.count →
    ∃ t, runOps (bs.map (.filterShift i)) s = some t ∧ t.acc i = bs.foldl shiftIn (s.acc i) := by
  induction bs with
  | nil => exact fun s _ => ⟨s, rfl, rfl⟩
  | cons b bs ih =>
    intro s hi
    obtain ⟨t, hrun, hacc⟩ := ih ((filterShift i b s).answer .nothing) (by simpa [filterShift, State.setAcc] using hi)
    have hexec : exec (.filterShift i b) s = .next ((filterShift i b s).answer .nothing) := onInstance_of_lt hi _
    refine ⟨t, by rw [List.map_cons, runOps, hexec]; exact hrun, hacc.trans ?_⟩
    rw [show ((filterShift i b s).answer .nothing).acc i = (filterShift i b s).acc i from rfl, filterShift_acc hi]
    rfl

/-- The seed and a run of shifts leave `accOf` of the samples. -/
theorem runOps_seed_shifts {i : Nat} {s : State} (hi : i < s.count) (bs : List Bool) :
    ∃ t, runOps (.filterSeed i :: bs.map (.filterShift i)) s = some t ∧ t.acc i = accOf bs := by
  have hexec : exec (.filterSeed i) s = .next ((filterSeed i s).answer .nothing) := onInstance_of_lt hi _
  have hseed : ((filterSeed i s).answer .nothing).acc i = 0x01 := by
    rw [State.acc, answer_inst, filterSeed, State.setAcc, mapInst_inst_self _ _ _ hi]
  obtain ⟨t, hrun, hacc⟩ := runOps_filterShift bs ((filterSeed i s).answer .nothing)
    (by simpa [filterSeed, State.setAcc] using hi)
  exact ⟨t, by rw [runOps, hexec]; exact hrun, by rw [hacc, hseed]; rfl⟩

/-- Settles O35. -/
theorem accumulatorHoldsTheSampleHistory : Obligations.AccumulatorHoldsTheSampleHistory := by
  unfold Obligations.AccumulatorHoldsTheSampleHistory
  intro i bs s hi
  obtain ⟨t, hrun, hacc⟩ := runOps_seed_shifts hi bs
  exact ⟨t, hrun, by rw [hacc]; exact accOf_getLsbD bs⟩

theorem byte_eq_ones_iff (a : Byte) : a = 0xFF ↔ ∀ j < 8, a.getLsbD j = true := by
  constructor
  · rintro rfl
    decide
  · intro h
    refine BitVec.eq_of_getLsbD_eq fun j hj => ?_
    rw [h j hj]
    exact (by decide : ∀ j < 8, true = (0xFF : Byte).getLsbD j) j hj

theorem byte_eq_zero_iff (a : Byte) : a = 0x00 ↔ ∀ j < 8, a.getLsbD j = false := by
  constructor
  · rintro rfl
    decide
  · intro h
    refine BitVec.eq_of_getLsbD_eq fun j hj => ?_
    rw [h j hj]
    exact (by decide : ∀ j < 8, false = (0x00 : Byte).getLsbD j) j hj

/-- After `n` ones the seed and the ones fill the bits up to `n`. -/
theorem accOf_ones (n : Nat) {j : Nat} (hj : j < 8) : (accOf (List.replicate n true)).getLsbD j = decide (j ≤ n) := by
  rw [accOf_getLsbD _ j hj, List.reverse_replicate, ← List.replicate_succ', List.getElem?_replicate]
  by_cases hjn : j ≤ n
  · simp [hjn, Nat.lt_succ_of_le hjn]
  · simp [hjn, show ¬j < n + 1 by omega]

/-- After `n` zeros only the seed is left, at bit `n`. -/
theorem accOf_zeros (n : Nat) {j : Nat} (hj : j < 8) : (accOf (List.replicate n false)).getLsbD j = decide (j = n) := by
  rw [accOf_getLsbD _ j hj, List.reverse_replicate, List.getElem?_append]
  rcases Nat.lt_trichotomy j n with hjn | rfl | hjn
  · simp [hjn, Nat.ne_of_lt hjn]
  · simp
  · have hpos : j - n ≠ 0 := by omega
    simp [show ¬j < n by omega, show j ≠ n by omega, hpos]

/-- Settles O36: which of the eight bits the run leaves at 1. -/
theorem pressNeedsSevenOnesReleaseEightZeros : Obligations.PressNeedsSevenOnesReleaseEightZeros := by
  unfold Obligations.PressNeedsSevenOnesReleaseEightZeros
  intro i n s hi
  obtain ⟨t, hones, ht⟩ := runOps_seed_shifts hi (List.replicate n true)
  obtain ⟨u, hzeros, hu⟩ := runOps_seed_shifts hi (List.replicate n false)
  have htOnes : t.acc i = 0xFF ↔ ∀ j < 8, j ≤ n := (byte_eq_ones_iff _).trans
    (forall₂_congr fun j hj => by rw [ht, accOf_ones n hj, decide_eq_true_iff])
  have htZero : t.acc i = 0x00 ↔ ∀ j < 8, ¬j ≤ n := (byte_eq_zero_iff _).trans
    (forall₂_congr fun j hj => by rw [ht, accOf_ones n hj, decide_eq_false_iff_not])
  have huZero : u.acc i = 0x00 ↔ ∀ j < 8, j ≠ n := (byte_eq_zero_iff _).trans
    (forall₂_congr fun j hj => by rw [hu, accOf_zeros n hj, decide_eq_false_iff_not])
  have huOnes : u.acc i = 0xFF ↔ ∀ j < 8, j = n := (byte_eq_ones_iff _).trans
    (forall₂_congr fun j hj => by rw [hu, accOf_zeros n hj, decide_eq_true_iff])
  refine ⟨t, u, hones, hzeros, ?_, ?_, ?_, ?_⟩
  · rw [htOnes]
    exact ⟨fun h => h 7 (by omega), fun hn j hj => by omega⟩
  · rw [Ne, htZero]
    exact fun h => h 0 (by omega) (Nat.zero_le n)
  · rw [huZero]
    exact ⟨fun h => Nat.not_lt.mp fun hn => h n hn rfl, fun hn j hj => by omega⟩
  · rw [Ne, huOnes]
    exact fun h => absurd ((h 0 (by omega)).trans (h 1 (by omega)).symm) (by omega)

/-! ### Timers (41_timer.md R101 to R105) -/

/-- Settles O37. -/
theorem timerArmClearsItsTimer : Obligations.TimerArmClearsItsTimer := by
  unfold Obligations.TimerArmClearsItsTimer
  intro i s hi
  have harm : ∀ tm, exec (.timerArm tm i) s = .next ((timerArm tm i s).answer .nothing) := fun tm =>
    onInstance_of_lt hi _
  constructor
  · rw [harm, timerArm, State.setTimer, mapInst_eq_withInst]
    rfl
  · rw [harm, timerArm, State.setTimer, mapInst_eq_withInst]
    rfl

theorem sat16Inc_toNat (t : Half) : (sat16Inc t).toNat = min (t.toNat + 1) 65535 := by
  rw [sat16Inc, BitVec.toNat_ofNat, Nat.mod_eq_of_lt (by omega)]

/-- Settles O38. -/
theorem timerAdvanceSaturates : Obligations.TimerAdvanceSaturates := by
  unfold Obligations.TimerAdvanceSaturates
  intro s
  refine ⟨(timerAdvance s).answer .nothing, rfl, timerAdvance_count s, fun i hi => ?_, rfl⟩
  have hinst : ((timerAdvance s).answer .nothing).inst i = (s.inst i).later := timerAdvance_inst s i hi
  refine ⟨timerAdvance_chan s i, ?_, ?_, ?_⟩
  · rw [State.tdb, hinst]
    exact sat16Inc_toNat _
  · rw [State.tstk, hinst]
    exact sat16Inc_toNat _
  · rw [State.tdb, State.tstk, hinst]
    rfl

/-- Settles O39. -/
theorem timerExpiredAtOrAboveTheLimit : Obligations.TimerExpiredAtOrAboveTheLimit := by
  unfold Obligations.TimerExpiredAtOrAboveTheLimit
  intro i limit s hi
  exact ⟨expired (s.tdb i) limit, expired (s.tstk i) limit, onInstance_of_lt hi _, onInstance_of_lt hi _, expired_iff,
    expired_iff⟩

theorem timerAdvance_timer (tm : Timer) {i : Nat} {s : State} (hi : i < s.count) :
    (timerAdvance s).timer tm i = sat16Inc (s.timer tm i) := by
  cases tm <;> simp only [State.timer, State.tdb, State.tstk, timerAdvance_inst s i hi]

/-- `k` advances add `k`, up to 65535. -/
theorem runOps_timerAdvance (tm : Timer) {i : Nat} (k : Nat) : ∀ s : State, i < s.count →
    ∃ t, runOps (List.replicate k .timerAdvance) s = some t ∧
      (t.timer tm i).toNat = min ((s.timer tm i).toNat + k) 65535 := by
  induction k with
  | zero =>
    intro s _
    have hlt := (s.timer tm i).isLt
    exact ⟨s, rfl, by omega⟩
  | succ k ih =>
    intro s hi
    obtain ⟨t, hrun, htimer⟩ := ih ((timerAdvance s).answer .nothing) (by simpa using hi)
    have hnext : ((timerAdvance s).answer .nothing).timer tm i = (timerAdvance s).timer tm i := by cases tm <;> rfl
    refine ⟨t, hrun, ?_⟩
    rw [htimer, hnext, timerAdvance_timer tm hi, sat16Inc_toNat]
    omega

/-- Settles O40: an armed timer counts from 0. -/
theorem armedTimerCountsTheAdvances : Obligations.ArmedTimerCountsTheAdvances := by
  unfold Obligations.ArmedTimerCountsTheAdvances
  intro tm i k s hi
  have hexec : exec (.timerArm tm i) s = .next ((timerArm tm i s).answer .nothing) := onInstance_of_lt hi _
  have hzero : ((timerArm tm i s).answer .nothing).timer tm i = 0 := by
    cases tm <;> simp [State.timer, State.tdb, State.tstk, timerArm, State.setTimer, mapInst_inst_self, hi]
  obtain ⟨t, hrun, htimer⟩ := runOps_timerAdvance tm k ((timerArm tm i s).answer .nothing)
    (by cases tm <;> simpa [timerArm, State.setTimer] using hi)
  refine ⟨t, by rw [runOps, hexec]; exact hrun, ?_⟩
  rw [htimer, hzero]
  simp

/-! ### The ports (20_memory.md R42 to R46) -/

theorem withPull_chan_self {s : State} {c : Nat} (hc : c < s.count) :
    (s.withPull c).chan c = { s.chan c with pulled := (s.chan c).pulled + 1 } := pullBit_chan_self 0 c s hc

theorem withPull_chan_ne (s : State) {c d : Nat} (h : c ≠ d) : (s.withPull c).chan d = s.chan d :=
  pullBit_chan_ne 0 s h

/-- Settles O41. -/
theorem pullConsumesOneSampleOfItsChannel : Obligations.PullConsumesOneSampleOfItsChannel := by
  unfold Obligations.PullConsumesOneSampleOfItsChannel
  intro i c s hc
  refine ⟨if_pos hc, fun b hb => ?_, fun hlen => ?_, fun d _ => ?_⟩
  · rw [State.nextSample, List.getD_eq_getElem?_getD, hb]
    rfl
  · rw [State.nextSample, List.getD_eq_default _ _ hlen]
  · by_cases hdc : d = c
    · subst hdc
      rw [withPull_chan_self hc, if_pos rfl]
    · rw [withPull_chan_ne s (Ne.symm hdc), if_neg hdc]
      rfl

/-- Settles O42. -/
theorem postAnswersAndTouchesNoRegister : Obligations.PostAnswersAndTouchesNoRegister := by
  unfold Obligations.PostAnswersAndTouchesNoRegister
  exact fun _ _ _ _ _ => rfl

end Sys2Proof.Machine
end

section
/-! O56 (70_reset_and_hazards.md R229): with a window of at most 6 ticks nothing is ever posted. The registers show why:
an instance leaves Press-confirm only by the timeout, since after its entry the debounce timer never reads less than
the number of samples shifted in, and 6 samples cannot fill the accumulator. So it never gets beyond Press-confirm, and
no row it can match there notifies. -/

namespace Sys2Proof.Machine

open Sys2Proof

/-! ### The rows of Start, Released and a timed out Press-confirm -/

theorem quiet_row_facts : ∀ w ∈ defaultTable, ((Row.ofWord w).cur = .cnfPress → (Row.ofWord w).rsnIsTick = false) ∧
    ((Row.ofWord w).cur = .start ∨ (Row.ofWord w).cur = .released ∨
        ((Row.ofWord w).cur = .cnfPress ∧ (Row.ofWord w).rsn = rsnTimeout) →
      (Row.ofWord w).act = .nop ∧ (rowTarget (Row.ofWord w) = .released ∨ rowTarget (Row.ofWord w) = .cnfPress)) := by
  have hall : defaultTable.all (fun w => decide (((Row.ofWord w).cur = .cnfPress → (Row.ofWord w).rsnIsTick = false) ∧
      ((Row.ofWord w).cur = .start ∨ (Row.ofWord w).cur = .released ∨
          ((Row.ofWord w).cur = .cnfPress ∧ (Row.ofWord w).rsn = rsnTimeout) →
        (Row.ofWord w).act = .nop ∧
          (rowTarget (Row.ofWord w) = .released ∨ rowTarget (Row.ofWord w) = .cnfPress)))) = true := by decide
  exact fun w hw => of_decide_eq_true (List.all_eq_true.mp hall w hw)

/-- What such an exit finds neither notifies nor leads beyond Press-confirm. -/
theorem quiet_findRow {s : State} {i : Nat} {st : StateId} {evoId evoData rsn : Byte} {r : Row}
    (hst : st = .start ∨ st = .released ∨ (st = .cnfPress ∧ rsn = rsnTimeout))
    (h : findRow s defaultTable ⟨i, st, evoId, evoData, rsn⟩ = some r) :
    r.act = .nop ∧ (rowTarget r = .released ∨ rowTarget r = .cnfPress) := by
  obtain ⟨w, hw, rfl, hm⟩ := findRow_some h
  obtain ⟨-, hcur, -, -, hrsn⟩ := rowMatches_iff.mp hm
  obtain ⟨hnotTick, hfacts⟩ := quiet_row_facts w hw
  refine hfacts ?_
  rw [hcur]
  refine hst.imp id (Or.imp id fun ⟨hpress, htimeout⟩ => ⟨hpress, ?_⟩)
  rw [if_neg (by simp [hnotTick (hcur.trans hpress)])] at hrsn
  exact hrsn.trans htimeout

/-! ### Quiet registers -/

/-- Registers from which nothing can be posted. In Press-confirm the accumulator holds at most 5 samples, and the timer
reads at least their number and `d`. -/
structure Inst.Quiet (d : Nat) (x : Inst) : Prop where
  legal : x.Legal
  place : x.as = .start ∨ x.as = .released ∨ x.as = .cnfPress ∨ x.as = .noState
  waiting : x.as = .cnfPress → x.ph.confirm = .oper →
    ∃ bs, x.acc = accOf bs ∧ bs.length ≤ 5 ∧ bs.length + d ≤ x.tdb.toNat
  timedOut : x.as = .cnfPress → x.ph.confirm = .exit → x.xr = rsnTimeout

theorem quiet_reset : Inst.reset.Quiet 0 := ⟨legal_reset, .inl rfl, nofun, nofun⟩

theorem Inst.Quiet.later {x : Inst} (h : x.Quiet 0) : x.later.Quiet 1 := by
  refine ⟨h.legal.later, h.place, fun has hp => ?_, h.timedOut⟩
  obtain ⟨bs, hacc, hlen, htdb⟩ := h.waiting has hp
  refine ⟨bs, hacc, hlen, ?_⟩
  rw [show x.later.tdb = sat16Inc x.tdb from rfl, sat16Inc_toNat]
  omega

/-- Up to 6 samples leave the seed below bit 7, so they qualify neither way. -/
theorem accOf_unqualified {bs : List Bool} (h : bs.length ≤ 6) : ¬(accOf bs = 0x00 ∨ accOf bs = 0xFF) := by
  have hseed : (accOf bs).getLsbD bs.length = true := by
    rw [accOf_getLsbD bs _ (by omega)]
    simp
  have htop : (accOf bs).getLsbD 7 = false := by
    rw [accOf_getLsbD bs 7 (by omega), List.getElem?_eq_none (by simpa using by omega)]
    rfl
  rintro (hzero | hones)
  · rw [(byte_eq_zero_iff _).mp hzero _ (by omega)] at hseed
    cases hseed
  · rw [(byte_eq_ones_iff _).mp hones 7 (by omega)] at htop
    cases htop

/-- One sample in Press-confirm: the window ends, or one more sample is held. -/
theorem confirmEffect_quiet {c : Config} (hc : c.debounceTicks.toNat ≤ 6) {x : Inst} (b : Bool) {bs : List Bool}
    (hacc : x.acc = accOf bs) (hlen : bs.length ≤ 5) (htdb : bs.length + 1 ≤ x.tdb.toNat)
    (hp : x.ph.confirm = .oper) :
    ((confirmEffect c b x).inst.ph.confirm = .exit ∧ (confirmEffect c b x).inst.xr = rsnTimeout) ∨
      ((confirmEffect c b x).inst.ph.confirm = .oper ∧ (confirmEffect c b x).inst.acc = accOf (bs ++ [b]) ∧
        (bs ++ [b]).length ≤ 5 ∧ (bs ++ [b]).length ≤ (confirmEffect c b x).inst.tdb.toNat) := by
  have hshift : shifted x.acc b = accOf (bs ++ [b]) := by rw [accOf_concat, ← hacc, shiftIn_eq_shifted]
  have hlen' : (bs ++ [b]).length = bs.length + 1 := List.length_append
  have hq : ¬(shifted x.acc b = 0x00 ∨ shifted x.acc b = 0xFF) := by
    rw [hshift]
    exact accOf_unqualified (by omega)
  rcases Nat.lt_or_ge x.tdb.toNat c.debounceTicks.toNat with ht | ht
  · rw [confirmEffect_of_waiting hq ht]
    exact .inr ⟨hp, hshift, by omega, by rw [hlen']; exact htdb⟩
  · rw [confirmEffect_of_expired hq ht]
    exact .inl ⟨rfl, rfl⟩

/-- What a quiet instance emits when it leaves: a timed out Press-confirm gives the reason timeout. -/
theorem Inst.Quiet.exit {d : Nat} {x : Inst} (h : x.Quiet d) {f : Func} (hf : funcOf x.as = some f)
    (hp : x.ph.get f = .exit) (c : Config) (i : Nat) (evid : Byte) (b : Bool) :
    ∃ evoId evoData rsn, (actionEffect c f .exit i evid b x).res = .done evoId evoData rsn ∧
      (x.as = .start ∨ x.as = .released ∨ (x.as = .cnfPress ∧ rsn = rsnTimeout)) := by
  rcases h.place with has | has | has | has <;> rw [has] at hf <;> cases hf
  · exact ⟨_, _, _, rfl, .inl has⟩
  · exact ⟨_, _, _, rfl, .inr (.inl has)⟩
  · exact ⟨_, _, _, rfl, .inr (.inr ⟨has, h.timedOut has hp⟩)⟩

/-- A step of Press-confirm that is not its exit: entered, one sample more, or timed out. -/
theorem Inst.Quiet.confirm {x : Inst} (h : x.Quiet 1) (has : x.as = .cnfPress) {c : Config}
    (hc : c.debounceTicks.toNat ≤ 6) (i : Nat) (evid : Byte) (b : Bool) (hp : x.ph.get .confirm ≠ .exit) {y : Inst}
    (hy : (actionEffect c .confirm (x.ph.get .confirm) i evid b x).inst = y) :
    (y.ph.confirm = .exit ∧ y.xr = rsnTimeout) ∨
      (y.ph.confirm = .oper ∧ ∃ bs, y.acc = accOf bs ∧ bs.length ≤ 5 ∧ bs.length + 0 ≤ y.tdb.toNat) := by
  cases hq : x.ph.get .confirm with
  | exit => exact absurd hq hp
  | uninit | finished =>
    rw [hq] at hy
    subst hy
    exact .inr ⟨rfl, [], rfl, by simp, by simp⟩
  | oper =>
    rw [hq] at hy
    subst hy
    obtain ⟨bs, hacc, hlen, htdb⟩ := h.waiting has hq
    exact (confirmEffect_quiet hc b hacc hlen htdb hq).imp id fun ⟨hoper, hrest⟩ => ⟨hoper, bs ++ [b], hrest⟩

section

variable {s : State} (htable : s.cfg.table = defaultTable)
include htable

/-- A turn keeps an instance quiet. -/
theorem turnInst_quiet (hwindow : s.cfg.debounceTicks.toNat ≤ 6) {x : Inst} (h : x.Quiet 1) (ev rv : Bool) (evid : Byte)
    (i : Nat) (b : Bool) : (turnInst ev rv evid i s b x).Quiet 0 := by
  have hlegal := turnInst_legal h.legal ev rv evid i s b
  cases hs : isSentinel x.as with
  | true =>
    rw [turnInst_of_sentinel hs] at hlegal ⊢
    exact ⟨hlegal, .inr (.inr (.inr rfl)), nofun, nofun⟩
  | false =>
    obtain ⟨f, hf⟩ := funcOf_of_not_sentinel hs
    cases hm : malformedCall ev rv with
    | true =>
      rw [turnInst_malformed hf evid i s b hm]
      refine ⟨h.legal, h.place, fun has hp => ?_, h.timedOut⟩
      obtain ⟨bs, hacc, hlen, htdb⟩ := h.waiting has hp
      exact ⟨bs, hacc, hlen, by omega⟩
    | false =>
      by_cases hp : x.ph.get f = .exit
      · obtain ⟨evoId, evoData, rsn, hres, hst⟩ := h.exit hf hp s.cfg i evid b
        have hidle := actionEffect_exit_idle h.legal hf s.cfg i evid b .confirm
        rw [turnInst_leave hf evid i s b hm hp, hres] at hlegal ⊢
        refine ⟨hlegal, ?_, fun _ hoper => ?_, fun _ hexit => ?_⟩
        · simp only [nextState, htable]
          cases hrow : findRow s defaultTable ⟨i, x.as, evoId, evoData, rsn⟩ with
          | none => exact .inr (.inr (.inr rfl))
          | some r =>
            obtain ⟨-, hnext⟩ := quiet_findRow hst hrow
            exact .inr (hnext.imp id .inl)
        · rcases hidle with hidle | hidle <;> cases hidle.symm.trans hoper
        · rcases hidle with hidle | hidle <;> cases hidle.symm.trans hexit
      · rw [turnInst_stay hf evid i s b hm hp] at hlegal ⊢
        have has := actionEffect_as s.cfg f i evid b x (x.ph.get f)
        have hconfirm : x.as = .cnfPress → f = .confirm := by
          intro hpress
          rw [hpress] at hf
          exact (Option.some.inj hf).symm
        refine ⟨hlegal, by rw [has]; exact h.place, fun hpress hphase => ?_, fun hpress hphase => ?_⟩
        · rw [has] at hpress
          obtain rfl := hconfirm hpress
          rcases h.confirm hpress hwindow i evid b hp rfl with ⟨hexit, -⟩ | ⟨-, hheld⟩
          · cases hexit.symm.trans hphase
          · exact hheld
        · rw [has] at hpress
          obtain rfl := hconfirm hpress
          rcases h.confirm hpress hwindow i evid b hp rfl with ⟨-, hrsn⟩ | ⟨hoper, -⟩
          · exact hrsn
          · cases hoper.symm.trans hphase

/-- A turn of a quiet instance posts nothing. -/
theorem callRecords_quiet {i : Nat} {d : Nat} (h : (s.inst i).Quiet d) (ev rv : Bool) (evid : Byte) :
    ∀ r ∈ callRecords ev rv evid i (s.as i) s, r.isPost = false := by
  have heffect : ∀ c e, ∀ r ∈ effectRecords s i c e, r.isPost = false := by
    rintro c ⟨res, x, pulls, err⟩
    cases pulls <;> cases err <;> simp [effectRecords, Record.isPost]
  unfold callRecords
  split
  · nofun
  · next hs =>
    intro r hr
    rcases List.mem_append.mp hr with hr | hr
    · exact heffect _ _ r hr
    · obtain ⟨f, hf⟩ := funcOf_of_not_sentinel ((Bool.not_eq_true _).mp hs)
      unfold callEffect at hr
      cases hm : malformedCall ev rv with
      | true =>
        rw [stepEffect_of_malformed hf _ _ hm] at hr
        cases hr
      | false =>
        rw [stepEffect_of_func hf _ _ hm] at hr
        generalize s.nextSample (stepChannel s.cfg (s.as i) i) = b at hr
        by_cases hp : (s.inst i).ph.get f = .exit
        · obtain ⟨evoId, evoData, rsn, hres, hst⟩ := h.exit hf hp s.cfg i evid b
          rw [hp, hres] at hr
          simp only [exitRecords, htable] at hr
          cases hrow : findRow s defaultTable ⟨i, s.as i, evoId, evoData, rsn⟩ with
          | none =>
            rw [hrow] at hr
            obtain rfl := List.mem_singleton.mp hr
            rfl
          | some w =>
            obtain ⟨hact, -⟩ := quiet_findRow hst hrow
            rw [hrow] at hr
            simp only [hact] at hr
            cases hr
        · rw [actionEffect_notDone _ _ hp] at hr
          cases hr

end

/-! ### Quiet runs -/

theorem StepTo.port {s t : State} (h : StepTo s t) : t.port = s.port.tail := by
  cases h with
  | idle hp => simp [hp]
  | reset hp | setup hp | tickOff hp | badCmd hp =>
    rw [hp]
    rfl
  | tick hp =>
    obtain ⟨u, hu⟩ := acceptedTick_turns _ _ _ _
    rw [hp]
    exact hu.port
  | @control i evid rest f hp hi =>
    rw [hp, phaseAction_eq _ _ _ _ _ (show i < State.count { s with port := rest } from hi)]
    exact (Effect.apply_onlyOutside ..).port.trans (stepped_port ..)
  | outside hp _ hout =>
    rw [hp]
    exact hout.port

/-- A state of a run of host commands in which nothing has been posted and nothing can be. -/
structure State.QuietRun (s : State) : Prop where
  table : s.cfg.table = defaultTable
  window : s.cfg.debounceTicks.toNat ≤ 6
  commands : s.hostOnly
  quiet : ∀ i < s.count, (s.inst i).Quiet 0
  noPost : ∀ r ∈ s.history, r.isPost = false

/-- A tick of quiet instances posts nothing. -/
theorem TickTurns.noPost {ev rv : Bool} {evid : Byte} {s t : State} {u : Nat → State}
    (hu : TickTurns ev rv evid s t u) (htable : s.cfg.table = defaultTable)
    (hquiet : ∀ i < s.count, (s.inst i).Quiet 0) (h : ∀ r ∈ s.history, r.isPost = false) :
    ∀ r ∈ t.history, r.isPost = false := by
  intro r hr
  rw [hu.history] at hr
  rcases List.mem_append.mp hr with hr | hr
  · rcases List.mem_append.mp hr with hr | hr
    · exact h r hr
    · obtain ⟨i, hi, hr⟩ := List.mem_flatMap.mp hr
      have hi := mem_descending.mp hi
      refine callRecords_quiet ?_ (d := 1) ?_ ev rv evid r hr
      · rw [(hu.starts i hi).cfg]
        exact htable
      · rw [hu.start_inst hi]
        exact (hquiet i hi).later
  · split at hr
    · cases hr
    · obtain rfl := List.mem_singleton.mp hr
      rfl

theorem StepTo.quietRun {s t : State} (h : StepTo s t) (hs : s.QuietRun) : t.QuietRun := by
  have hcommand : ∀ {q rest}, s.port = q :: rest → ∃ w, q = .command w := fun hp =>
    hs.commands _ (by rw [hp]; exact List.mem_cons_self)
  obtain ⟨hcfg, -⟩ := h.build
  refine ⟨by rw [hcfg]; exact hs.table, by rw [hcfg]; exact hs.window, ?_, ?_, ?_⟩
  · intro q hq
    rw [h.port] at hq
    exact hs.commands q (List.mem_of_mem_tail hq)
  · refine h.forall_inst quiet_reset ?_ (fun _ hx => hx.later) ?_ hs.quiet
    · rintro ⟨i, evid, rest, hp⟩
      obtain ⟨w, hw⟩ := hcommand hp
      cases hw
    · intro ev rv evid u i b x hu hx
      exact turnInst_quiet (by rw [hu]; exact hs.table) (by rw [hu]; exact hs.window) hx ev rv evid i b
  · cases h with
    | idle | reset | setup | tickOff => exact hs.noPost
    | tick =>
      obtain ⟨u, hu⟩ := acceptedTick_turns _ _ _ _
      exact hu.noPost hs.table hs.quiet hs.noPost
    | badCmd =>
      intro r hr
      rcases List.mem_append.mp hr with hr | hr
      · exact hs.noPost r hr
      · obtain rfl := List.mem_singleton.mp hr
        rfl
    | control hp =>
      obtain ⟨w, hw⟩ := hcommand hp
      cases hw
    | outside hp hq =>
      obtain ⟨w, hw⟩ := hcommand hp
      exact absurd hw (hq w)

/-- What every step keeps, a run keeps. -/
theorem runSteps_induction {P : State → Prop} (h : ∀ s t, P s → step s = .next t → P t) :
    ∀ (k : Nat) (s t : State), P s → runSteps k s = some t → P t := by
  intro k
  induction k with
  | zero => rintro s t hs ⟨⟩; exact hs
  | succ k ih =>
    intro s t hs hrun
    rw [runSteps] at hrun
    cases hstep : step s with
    | next s' =>
      rw [hstep] at hrun
      exact ih s' t (h s s' hs hstep) hrun
    | fault f => rw [hstep] at hrun; cases hrun
    | refused r => rw [hstep] at hrun; cases hrun

/-- Settles O56: the state after reset starts a quiet run. -/
theorem shortWindowNeverPosts : Obligations.ShortWindowNeverPosts := by
  unfold Obligations.ShortWindowNeverPosts
  intro c streams q words k t hwf htable hwindow hrun
  have hstart : State.QuietRun { State.resetWith c streams q with port := words.map Request.command } := by
    refine ⟨htable, hwindow, fun q hq => ?_, ?_, nofun⟩
    · obtain ⟨w, -, rfl⟩ := List.mem_map.mp hq
      exact ⟨w, rfl⟩
    · refine (forall_lanes_iff _ (Inst.Quiet 0)).mp fun l hl => ?_
      obtain ⟨ch, -, rfl⟩ := List.mem_map.mp hl
      exact quiet_reset
  exact (runSteps_induction (fun _ _ hs hstep => (stepTo_of_step hstep).quietRun hs) k _ t hstart hrun).noPost

end Sys2Proof.Machine
end

section
/-! O57 (70_reset_and_hazards.md R229, R235): a clean press is posted in the eleventh tick. The ticks are followed one by
one on the registers of the button: its first 1 ends Released, one tick leaves it, one enters Press-confirm, seven more
ones fill the accumulator while the timer reads less than the window, and the exit takes the row that notifies. -/

namespace Sys2Proof.Machine

open Sys2Proof

/-! ### The row an exit takes -/

/-- In a legal build a default row that fits is the one the search takes, since no other does (R163, item 1). -/
theorem findRow_default {s : State} (hwf : s.cfg.wf = true) (htable : s.cfg.table = defaultTable) {w : Word}
    (hw : w ∈ defaultTable) {x : ExitOut} (h : RowFits (Row.ofWord w) x.s x.evoId x.evoData x.rsn s) :
    findRow s s.cfg.table x = some (Row.ofWord w) := by
  rw [← htable] at hw
  obtain ⟨r, hr⟩ := findRow_of_mem hw h
  obtain ⟨v, hv, rfl, hm⟩ := findRow_some hr
  obtain ⟨j, hj⟩ := List.mem_iff_getElem?.mp hw
  obtain ⟨k, hk⟩ := List.mem_iff_getElem?.mp hv
  have hjk : j = k := defaultTableMatchesAtMostOneRow s _ _ _ _ j k w v hwf htable hj hk h (rowMatches_iff.mp hm)
  subst hjk
  cases hj.symm.trans hk
  exact hr

section

variable {s : State} (hwf : s.cfg.wf = true) (htable : s.cfg.table = defaultTable)
include hwf htable

theorem findRow_twitch (i : Nat) (evoData : Byte) :
    findRow s s.cfg.table ⟨i, .released, s.tickid, evoData, rsnTwitch⟩ = some (Row.ofWord 0x43FC02C0) :=
  findRow_default hwf htable (by decide) (default_row_fits (by decide) evoData rfl rfl rfl)

theorem findRow_pressed (i : Nat) (evoData : Byte) :
    findRow s s.cfg.table ⟨i, .cnfPress, s.cfg.evPressed, evoData, rsnDebounced⟩ = some (Row.ofWord 0x67FC0520) :=
  findRow_default hwf htable (by decide) (default_row_fits (by decide) evoData rfl rfl rfl)

end

/-! ### One turn at each point of a clean press -/

section

variable (i : Nat) (s : State) {x : Inst}

/-- A 1 ends Released. -/
theorem turnInst_released_one {b : Bool} (hb : b = true) (has : x.as = .released) (hp : x.ph.released = .oper) :
    turnInst true true s.tickid i s b x = { x with ph := x.ph.set .released .exit } ∧
      turnPulls true true s.tickid i s.cfg b x = true := by
  have hf : funcOf x.as = some .released := by rw [has]; rfl
  have hp' : x.ph.get .released = .oper := hp
  rw [hb, turnInst_stay hf s.tickid i s true rfl (by rw [hp']; decide), turnPulls, stepEffect_of_func hf _ _ rfl, hp',
    show isSentinel x.as = false by rw [has]; rfl]
  exact ⟨rfl, rfl⟩

/-- The exit of Released leads to Press-confirm. -/
theorem turnInst_released_exit (hwf : s.cfg.wf = true) (htable : s.cfg.table = defaultTable) (b : Bool)
    (has : x.as = .released) (hp : x.ph.released = .exit) :
    turnInst true true s.tickid i s b x = { x with as := .cnfPress, ph := x.ph.set .released .finished } ∧
      turnPulls true true s.tickid i s.cfg b x = false := by
  have hf : funcOf x.as = some .released := by rw [has]; rfl
  have hp' : x.ph.get .released = .exit := hp
  have hnext : nextState s i x.as (actionEffect s.cfg .released .exit i s.tickid b x).res = .cnfPress := by
    rw [has]
    show nextState s i .released (.done s.tickid (evData i) rsnTwitch) = .cnfPress
    rw [nextState, findRow_twitch hwf htable]
    rfl
  rw [turnInst_leave hf s.tickid i s b rfl hp', hnext, turnPulls, stepEffect_of_func hf _ _ rfl, hp', has]
  exact ⟨rfl, rfl⟩

/-- The entry of Press-confirm seeds the accumulator and clears the timer. -/
theorem turnInst_confirm_entry (b : Bool) (has : x.as = .cnfPress)
    (hp : x.ph.confirm = .uninit ∨ x.ph.confirm = .finished) :
    turnInst true true s.tickid i s b x = { x with acc := accOf [], tdb := 0, ph := x.ph.set .confirm .oper } ∧
      turnPulls true true s.tickid i s.cfg b x = false := by
  have hf : funcOf x.as = some .confirm := by rw [has]; rfl
  have hne : x.ph.get .confirm ≠ .exit := by
    show x.ph.confirm ≠ .exit
    rcases hp with hp | hp <;> rw [hp] <;> decide
  rw [turnInst_stay hf s.tickid i s b rfl hne, turnPulls, stepEffect_of_func hf _ _ rfl,
    show isSentinel x.as = false by rw [has]; rfl]
  rcases hp with hp | hp <;> rw [show x.ph.get .confirm = _ from hp] <;> exact ⟨rfl, rfl⟩

theorem confirmEffect_pulls (c : Config) (b : Bool) (x : Inst) : (confirmEffect c b x).pulls = true := by
  unfold confirmEffect
  (repeat' split) <;> rfl

/-- A turn in the operate phase of Press-confirm is one sample. -/
theorem turnInst_confirm_oper (b : Bool) (has : x.as = .cnfPress) (hp : x.ph.confirm = .oper) :
    turnInst true true s.tickid i s b x = (confirmEffect s.cfg b x).inst ∧
      turnPulls true true s.tickid i s.cfg b x = true := by
  have hf : funcOf x.as = some .confirm := by rw [has]; rfl
  have hp' : x.ph.get .confirm = .oper := hp
  rw [turnInst_stay hf s.tickid i s b rfl (by rw [hp']; decide), turnPulls, stepEffect_of_func hf _ _ rfl, hp', has]
  exact ⟨rfl, confirmEffect_pulls ..⟩

/-- The exit of a qualified Press-confirm leads to Pressed. -/
theorem turnInst_confirm_exit (hwf : s.cfg.wf = true) (htable : s.cfg.table = defaultTable) (b : Bool)
    (has : x.as = .cnfPress) (hp : x.ph.confirm = .exit) (hxr : x.xr = rsnDebounced) (hacc : x.acc = 0xFF) :
    (turnInst true true s.tickid i s b x).as = .pressed := by
  have hf : funcOf x.as = some .confirm := by rw [has]; rfl
  have hp' : x.ph.get .confirm = .exit := hp
  have hres : (actionEffect s.cfg .confirm .exit i s.tickid b x).res =
      .done s.cfg.evPressed (evData i) rsnDebounced := by simp [actionEffect, hxr, hacc]
  rw [turnInst_leave hf s.tickid i s b rfl hp', hres, has, nextState, findRow_pressed hwf htable]
  rfl

end

/-- The exit of a qualified Press-confirm posts "pressed" with the instance's index. -/
theorem callRecords_confirm_exit {u : State} (hwf : u.cfg.wf = true) (htable : u.cfg.table = defaultTable) {i : Nat}
    (has : u.as i = .cnfPress) (hp : (u.inst i).ph.confirm = .exit) (hxr : (u.inst i).xr = rsnDebounced)
    (hacc : (u.inst i).acc = 0xFF) (evid : Byte) :
    Record.post u.tickNo i u.qh u.cfg.evPressed (evData i) u.nextAnswer ∈
      callRecords true true evid i (u.as i) u := by
  have hf : funcOf (u.as i) = some .confirm := by rw [has]; rfl
  have hp' : (u.inst i).ph.get .confirm = .exit := hp
  have hres : (callEffect true true evid i (u.as i) u).res = .done u.cfg.evPressed (evData i) rsnDebounced := by
    rw [callEffect, stepEffect_of_func hf _ _ rfl, hp']
    simp [actionEffect, hxr, hacc]
  have hout : outwardOf u.cfg u.cfg.evPressed rsnDebounced = u.cfg.evPressed := if_pos rfl
  obtain ⟨hne, -⟩ := wf_evPressed hwf
  unfold callRecords
  rw [if_neg (by rw [has]; decide), hres, has]
  simp only [exitRecords, findRow_pressed hwf htable]
  refine List.mem_append_right _ ?_
  show _ ∈ actionRecords u .notify _
  simp only [actionRecords, hout, if_neg hne]
  exact List.mem_cons_self

/-! ### One tick -/

/-- `t` is what a well-formed TICK makes of `s`, as far as button `i` can tell. -/
structure Ticked (i : Nat) (s t : State) : Prop where
  cfg : t.cfg = s.cfg
  tickid : t.tickid = s.tickid
  qh : t.qh = s.qh
  drvEn : t.drvEn = true
  tickNo : t.tickNo = s.tickNo + 1
  count : t.count = s.count
  inst : t.inst i = turnInst true true s.tickid i s (s.nextSample i) (s.inst i).later
  chan : t.chan i = if turnPulls true true s.tickid i s.cfg (s.nextSample i) (s.inst i).later then
    { s.chan i with pulled := (s.chan i).pulled + 1 } else s.chan i
  history : ∃ u rs, TurnStart (tickStart s) i u ∧ t.history = s.history ++ rs ∧
    callRecords true true s.tickid i (u.as i) u ⊆ rs

/-- Under PER_INSTANCE a well-formed TICK is taken and the block stays armed. -/
theorem exec_tick_ticked {s : State} {i : Nat} (hch : s.cfg.stuckCh0 = false)
    (hpolicy : s.cfg.failPolicy = .perInstance) (hen : s.drvEn = true) (hi : i < s.count) :
    ∃ t, exec (.tick true true 0 s.tickid 0 0) s = .next t ∧ Ticked i s t := by
  obtain ⟨u, hu⟩ := acceptedTick_turns true true s.tickid s
  obtain ⟨hinst, hchan⟩ := hu.own hch hi
  have harmed : (acceptedTick true true s.tickid s).drvEn = true := by
    rw [← Bool.not_eq_false, hu.drvEn, hpolicy]
    rintro ⟨h, -⟩
    cases h
  refine ⟨_, execTick_of_enabled hen true true 0 s.tickid 0 0, hu.cfg, hu.tickid, hu.qh, harmed, hu.tickNo, hu.count, hinst,
    hchan, u i, _, hu.starts i hi, by rw [answer_history, hu.history, harmed, if_pos rfl, List.append_nil], ?_⟩
  exact fun r hr => List.mem_flatMap.mpr ⟨i, mem_descending.mpr hi, hr⟩

/-- The next `n` samples of channel `i` are 1. -/
def OnesAhead (s : State) (i n : Nat) : Prop :=
  ∀ k < n, (s.chan i).samples.getD ((s.chan i).pulled + k) (s.chan i).level = true

theorem OnesAhead.sample {s : State} {i n : Nat} (h : OnesAhead s i (n + 1)) : s.nextSample i = true :=
  h 0 (Nat.succ_pos n)

theorem Ticked.onesAhead_pull {s t : State} {i n : Nat} (h : Ticked i s t) (hs : OnesAhead s i (n + 1))
    (hp : turnPulls true true s.tickid i s.cfg (s.nextSample i) (s.inst i).later = true) : OnesAhead t i n := by
  intro k hk
  rw [h.chan, if_pos hp]
  have hone := hs (k + 1) (by omega)
  rwa [show (s.chan i).pulled + (k + 1) = (s.chan i).pulled + 1 + k by omega] at hone

theorem Ticked.onesAhead_keep {s t : State} {i n : Nat} (h : Ticked i s t) (hs : OnesAhead s i n)
    (hp : turnPulls true true s.tickid i s.cfg (s.nextSample i) (s.inst i).later = false) : OnesAhead t i n := by
  intro k hk
  rw [h.chan, hp]
  exact hs k hk

/-! ### The points of a clean press -/

/-- Instance `i` is in Press-confirm with `k` ones held, at a timer that reads `k`. -/
structure Holding (k : Nat) (x : Inst) : Prop where
  as : x.as = .cnfPress
  phase : x.ph.confirm = .oper
  acc : x.acc = accOf (List.replicate k true)
  tdb : x.tdb.toNat = k

/-- Instance `i` is about to leave Press-confirm, qualified pressed. -/
structure Qualified (x : Inst) : Prop where
  as : x.as = .cnfPress
  phase : x.ph.confirm = .exit
  xr : x.xr = rsnDebounced
  acc : x.acc = 0xFF

theorem accOf_seven_ones : accOf (List.replicate 7 true) = 0xFF := by decide

theorem shifted_ones (k : Nat) : shifted (accOf (List.replicate k true)) true = accOf (List.replicate (k + 1) true) := by
  rw [← shiftIn_eq_shifted, ← accOf_concat, List.replicate_succ']

/-- The timer of an instance that holds `k` ones reads one more when its turn comes. -/
theorem Holding.later_tdb {k : Nat} {x : Inst} (h : Holding k x) (hk : k ≤ 6) : x.later.tdb.toNat = k + 1 := by
  rw [show x.later.tdb = sat16Inc x.tdb from rfl, sat16Inc_toNat, h.tdb]
  omega

/-- Below six ones the next 1 is held: it does not qualify, and the window has not ended. -/
theorem Holding.next {k : Nat} {x : Inst} (h : Holding k x) (hk : k < 6) {c : Config} (hc : 7 ≤ c.debounceTicks.toNat) :
    Holding (k + 1) (confirmEffect c true x.later).inst := by
  have hacc : shifted x.later.acc true = accOf (List.replicate (k + 1) true) := by
    rw [show x.later.acc = x.acc from rfl, h.acc, shifted_ones]
  have hq : ¬(shifted x.later.acc true = 0x00 ∨ shifted x.later.acc true = 0xFF) := by
    rw [hacc]
    exact accOf_unqualified (by simpa using by omega)
  have htdb := h.later_tdb (by omega)
  rw [confirmEffect_of_waiting hq (by omega)]
  exact ⟨h.as, h.phase, hacc, htdb⟩

/-- The seventh 1 qualifies, whatever the timer reads. -/
theorem Holding.qualifies {x : Inst} (h : Holding 6 x) (c : Config) :
    Qualified (confirmEffect c true x.later).inst := by
  have hacc : shifted x.later.acc true = 0xFF := by
    rw [show x.later.acc = x.acc from rfl, h.acc, shifted_ones, accOf_seven_ones]
  rw [confirmEffect_of_qualified (.inr hacc)]
  exact ⟨h.as, rfl, rfl, hacc⟩

/-! ### The run -/

/-- What the statement asks of the block: the default table in a legal build, its window, own channels, PER_INSTANCE, and
the block armed. -/
structure Armed (s : State) (i : Nat) : Prop where
  wf : s.cfg.wf = true
  table : s.cfg.table = defaultTable
  window : 7 ≤ s.cfg.debounceTicks.toNat
  ownChannel : s.cfg.stuckCh0 = false
  policy : s.cfg.failPolicy = .perInstance
  drvEn : s.drvEn = true
  present : i < s.count

/-- `s` is what `n` well-formed TICKs make of `s₀`. -/
structure After (s₀ : State) (i n : Nat) (s : State) : Prop where
  run : runOps (List.replicate n (.tick true true 0 s₀.tickid 0 0)) s₀ = some s
  tickid : s.tickid = s₀.tickid
  qh : s.qh = s₀.qh
  cfg : s.cfg = s₀.cfg
  tickNo : s.tickNo = s₀.tickNo + n
  armed : Armed s i
  history : ∃ rs, s.history = s₀.history ++ rs

theorem runOps_append (is js : List Instr) (s : State) : runOps (is ++ js) s = (runOps is s).bind (runOps js) := by
  induction is generalizing s with
  | nil => rfl
  | cons i is ih =>
    rw [List.cons_append, runOps, runOps]
    cases exec i s with
    | next t => exact ih t
    | fault f => rfl
    | refused r => rfl

/-- One more tick. -/
theorem After.tick {s₀ s : State} {i n : Nat} (h : After s₀ i n s) :
    ∃ t, After s₀ i (n + 1) t ∧ Ticked i s t := by
  obtain ⟨t, hexec, ht⟩ := exec_tick_ticked h.armed.ownChannel h.armed.policy h.armed.drvEn h.armed.present
  obtain ⟨rs, hrs⟩ := h.history
  obtain ⟨-, rs', -, hrs', -⟩ := ht.history
  refine ⟨t, ⟨?_, ht.tickid.trans h.tickid, ht.qh.trans h.qh, ht.cfg.trans h.cfg, by rw [ht.tickNo, h.tickNo]; omega, ?_,
    rs ++ rs', by rw [hrs', hrs, List.append_assoc]⟩, ht⟩
  · rw [List.replicate_succ', runOps_append, h.run, ← h.tickid]
    show runOps [.tick true true 0 s.tickid 0 0] s = some t
    rw [runOps, hexec]
    rfl
  · have hcfg := ht.cfg
    exact ⟨hcfg ▸ h.armed.wf, hcfg ▸ h.armed.table, hcfg ▸ h.armed.window, hcfg ▸ h.armed.ownChannel,
      hcfg ▸ h.armed.policy, ht.drvEn, ht.count ▸ h.armed.present⟩

/-- Three ticks from the first 1: Released ended, Released left, Press-confirm entered. -/
theorem After.entered {s₀ s : State} {i n : Nat} (h : After s₀ i n s) (hlegal : (s.inst i).Legal)
    (has : s.as i = .released) (hp : s.ph i .released = .oper) (hones : OnesAhead s i 8) :
    ∃ t, After s₀ i (n + 3) t ∧ Holding 0 (t.inst i) ∧ OnesAhead t i 7 := by
  obtain ⟨s1, h1, t1⟩ := h.tick
  obtain ⟨hinst1, hpull1⟩ := turnInst_released_one i s (x := (s.inst i).later) hones.sample has hp
  have hones1 : OnesAhead s1 i 7 := t1.onesAhead_pull hones hpull1
  rw [← t1.inst] at hinst1
  obtain ⟨s2, h2, t2⟩ := h1.tick
  obtain ⟨hinst2, hpull2⟩ := turnInst_released_exit i s1 (x := (s1.inst i).later) h1.armed.wf h1.armed.table
    (s1.nextSample i) (by rw [hinst1]; exact has) (by rw [hinst1]; rfl)
  have hones2 : OnesAhead s2 i 7 := t2.onesAhead_keep hones1 hpull2
  rw [← t2.inst] at hinst2
  have hidle : (s2.inst i).ph.confirm = .uninit ∨ (s2.inst i).ph.confirm = .finished := by
    rw [hinst2, hinst1]
    exact hlegal.idle .confirm (by rw [show (s.inst i).as = .released from has]; decide)
  obtain ⟨s3, h3, t3⟩ := h2.tick
  obtain ⟨hinst3, hpull3⟩ := turnInst_confirm_entry i s2 (x := (s2.inst i).later) (s2.nextSample i)
    (by rw [hinst2]; rfl) hidle
  refine ⟨s3, h3, ?_, t3.onesAhead_keep hones2 hpull3⟩
  rw [t3.inst, hinst3]
  exact ⟨by rw [hinst2]; rfl, rfl, rfl, rfl⟩

/-- One tick in Press-confirm with a 1 ahead is one sample. -/
theorem After.sampled {s₀ s : State} {i n k m : Nat} (h : After s₀ i n s) (hk : Holding k (s.inst i))
    (hones : OnesAhead s i (m + 1)) :
    ∃ t, After s₀ i (n + 1) t ∧ t.inst i = (confirmEffect s.cfg true (s.inst i).later).inst ∧ OnesAhead t i m := by
  obtain ⟨t, ht, hticked⟩ := h.tick
  obtain ⟨hinst, hpull⟩ := turnInst_confirm_oper i s (x := (s.inst i).later) (s.nextSample i) hk.as hk.phase
  refine ⟨t, ht, ?_, hticked.onesAhead_pull hones hpull⟩
  rw [hticked.inst, hinst, hones.sample]

/-- Ones fill the accumulator, one a tick. -/
theorem After.held {s₀ s : State} {i n : Nat} (h : After s₀ i n s) (hzero : Holding 0 (s.inst i))
    (hones : OnesAhead s i 7) : ∀ k ≤ 6, ∃ t, After s₀ i (n + k) t ∧ Holding k (t.inst i) ∧ OnesAhead t i (7 - k) := by
  intro k
  induction k with
  | zero => exact fun _ => ⟨s, h, hzero, hones⟩
  | succ k ih =>
    intro hk
    obtain ⟨t, ht, hheld, hahead⟩ := ih (by omega)
    rw [show 7 - k = 7 - (k + 1) + 1 by omega] at hahead
    obtain ⟨u, hu, hinst, hrest⟩ := ht.sampled hheld hahead
    exact ⟨u, hu, by rw [hinst]; exact hheld.next (by omega) ht.armed.window, hrest⟩

/-- The exit tick posts "pressed". -/
theorem After.posted {s₀ s : State} {i n : Nat} (h : After s₀ i n s) (hq : Qualified (s.inst i)) :
    ∃ t rs, After s₀ i (n + 1) t ∧ t.as i = .pressed ∧ t.history = s₀.history ++ rs ∧
      ∃ ok, Record.post (s₀.tickNo + (n + 1)) i s₀.qh s₀.cfg.evPressed (BitVec.ofNat 8 i) ok ∈ rs := by
  obtain ⟨t, ht, hticked⟩ := h.tick
  obtain ⟨rs, hrs⟩ := h.history
  obtain ⟨u, rs', hu, hrs', hsub⟩ := hticked.history
  refine ⟨t, rs ++ rs', ht, ?_, by rw [hrs', hrs, List.append_assoc], u.nextAnswer, List.mem_append_right _ (hsub ?_)⟩
  · rw [State.as, hticked.inst]
    exact turnInst_confirm_exit i s h.armed.wf h.armed.table (s.nextSample i) hq.as hq.phase hq.xr hq.acc
  · have hcfg : u.cfg = s.cfg := hu.cfg
    have hinst : u.inst i = (s.inst i).later := hu.inst.trans (tickStart_inst h.armed.present)
    have hpost := callRecords_confirm_exit (u := u) (i := i) (hcfg ▸ h.armed.wf) (hcfg ▸ h.armed.table)
      (by rw [State.as, hinst]; exact hq.as) (by rw [hinst]; exact hq.phase) (by rw [hinst]; exact hq.xr)
      (by rw [hinst]; exact hq.acc) s.tickid
    have hticks : u.tickNo = s₀.tickNo + (n + 1) := by rw [hu.tickNo, tickStart_tickNo, h.tickNo]; omega
    have hqh : u.qh = s₀.qh := hu.qh.trans h.qh
    rwa [hticks, hqh, hcfg, h.cfg] at hpost

/-- Settles O57: three ticks to enter Press-confirm, seven samples, and the exit. -/
theorem cleanPressIsReportedTenTicksLater : Obligations.CleanPressIsReportedTenTicksLater := by
  unfold Obligations.CleanPressIsReportedTenTicksLater
  intro s i hinv htable hwindow hch hpolicy hen hi has hp hones
  have hlegal : (s.inst i).Legal := (forall_lanes_iff s Inst.Legal).mp hinv.legal i hi
  have hstart : After s i 0 s :=
    ⟨rfl, rfl, rfl, rfl, rfl, ⟨hinv.build, htable, hwindow, hch, hpolicy, hen, hi⟩, [], (List.append_nil _).symm⟩
  obtain ⟨s3, h3, hzero, hones3⟩ := hstart.entered hlegal has hp hones
  obtain ⟨s9, h9, hsix, hones9⟩ := h3.held hzero hones3 6 (Nat.le_refl 6)
  obtain ⟨s10, h10, hinst10, -⟩ := h9.sampled (m := 0) hsix hones9
  have hqualified : Qualified (s10.inst i) := by
    rw [hinst10]
    exact hsix.qualifies s9.cfg
  obtain ⟨t, rs, ht, hpressed, hhistory, hpost⟩ := h10.posted hqualified
  exact ⟨t, rs, ht.run, hpressed, hhistory, hpost⟩

end Sys2Proof.Machine
end
